-- ==== Sys2Proof/Word.lean ====
section
/-! DEFINITION. The word types of the link block. Every register, buffer and stream of the block is made of bytes
(R11, R68); the CRC accumulator, the timeouts and the WR operation word are 16 bits wide. All values are unsigned (R11). -/

namespace Sys2Proof

/-- A byte: 8 bits, unsigned, bit 0 the least significant (R11). -/
abbrev Byte := BitVec 8

/-- A 16-bit word: CRC_ACC (R24), TIMEOUT (R35), TLATCH and TIMER (R36), a WR operation word (R90). -/
abbrev Word16 := BitVec 16

end Sys2Proof
end

