-- ==== Sys2Proof/Config.lean ====
section
/-! DEFINITION. What an implementation of the block fixes and the spec leaves open (00_scope.md R10,
93_implementation_defined.md): the transport's parameters, which State carries unchanged, and the free values,
constants with no body, of which nothing can be proved. -/

namespace Sys2Proof

/-- The capacity of a transport queue: RXQ_DEPTH and TXQ_DEPTH are "positive integers or unbounded" (D28). -/
inductive Depth where
  /-- The queue is never full. -/
  | unbounded
  /-- The queue holds `extra + 1` bytes: written so, a capacity is positive by its form. -/
  | bounded (extra : Nat)
deriving DecidableEq, Repr

/-- What the transport does with a byte that arrives while RXQ is full (U6): "the transport either drops the new byte
or the peer step is not enabled". -/
inductive RxFull where
  /-- The new byte is lost. -/
  | dropNew
  /-- The peer's step is not enabled: it keeps the byte. -/
  | stallPeer
deriving DecidableEq, Repr

/-- The open parameters that a rule of the block reads (R10, D28, U6). State carries them and no step changes them, so a
statement about every state holds for every choice of them (log 7, log 8). -/
structure Transport where
  rxqDepth : Depth
  txqDepth : Depth
  rxFull   : RxFull
deriving DecidableEq, Repr

/-- Parity of the serial line, part of LINE_FORMAT (R10, D29). The spec gives no set of values (D29, N21): these five are
the model's own (DESIGN CHOICE, log 21). -/
inductive Parity where
  | absent
  | even
  | odd
  | mark
  | space
deriving DecidableEq, Repr, Inhabited

/-- LINE_FORMAT: "the serial line's data bits, parity and stop bits" (R10, D29). The spec gives no set of values; that the
stop bits are counted in halves, so that 1.5 is among them, is the model's own (DESIGN CHOICE, log 21). -/
structure LineFormat where
  dataBits : Nat
  parity   : Parity
  stopHalfBits : Nat
deriving DecidableEq, Repr, Inhabited

namespace Config

/-- FREE VALUE (U3, R42). The byte an underrunning RBUF.POP returns, the n-th time one is drawn. DESIGN CHOICE, safe:
no body, so no claim can rest on a value of it (log 10). -/
opaque freeByte : Nat → Byte

/-- LINE_FORMAT, OPEN (R10, D29). "No rule of the block's function depends on" it (log 21). -/
opaque lineFormat : LineFormat

/-- TICK_PERIOD, OPEN, "nominally 1 ms" (R10, D7). No functional rule depends on it (log 21). The spec gives no unit and no
set of values for it; a whole number of microseconds, 0 included, is the model's own (DESIGN CHOICE, log 21). -/
opaque tickPeriodMicros : Nat

/-- The number of bytes of WAKE_PREAMBLE, OPEN: "a byte sequence of length 0 to 254" (D31, log 21). -/
opaque wakePreambleLength : Fin 255

/-- The bytes of WAKE_PREAMBLE by index, OPEN (D31, log 21). -/
opaque wakePreambleByte : Nat → Byte

/-- WAKE_PREAMBLE, the "long preamble" the host loads and sends with TX.RAW in initialization step 1 (R10, D31, R254). -/
def wakePreamble : List Byte := (List.range wakePreambleLength.val).map wakePreambleByte

end Config

end Sys2Proof
end

