-- ==== Sys2Proof/Syntax.lean ====
section
/-! DEFINITION. The operation words a host issues (30_encoding.md R90, 44_carried_commands.md) and the instructions they
stand for: one constructor of `Instr` per row of spec/opcode_table.json. -/

namespace Sys2Proof

/-- An operation word in one of the table's three formats. WR and RD are the two forms of a register access (R90).
CARRIED is the table's format for a PN532 command: the opcode byte, `data[0]`, and the bytes of `data` after it
(R230); it stands for the accesses of LOAD and XACT (DESIGN CHOICE, log 1). -/
inductive OpWord where
  /-- Format WR: 16 bits, `aaaaaaaa dddddddd`, meaning `x[a] <- d`. -/
  | wr (word : Word16)
  /-- Format RD: 8 bits, the register address. -/
  | rd (word : Byte)
  /-- Format CARRIED: the command `opcode ++ payload`. -/
  | carried (opcode : Byte) (payload : List Byte)
deriving DecidableEq, Repr

/-- What the host does next: one operation word, or one of the two pseudo-operations of R112 that go on by what the host
reads. WAIT and READRSP are no words of the block: each of their accesses is one (R112, R113, log 18). -/
inductive HostAction where
  | word (w : OpWord)
  /-- `WAIT`: "repeat `RD STATUS` until bit 0 (BUSY) of the value read is 0". -/
  | wait
  /-- `READRSP`: "`RD RLEN`, then RLEN times `RBUF.POP`". -/
  | readRsp
deriving DecidableEq, Repr

/-- The host operations of the block (R92, R94) and the PN532 commands it carries (R230). -/
inductive Instr where
  -- WR words to CMD (R92)
  | nop
  | bufClr
  | crcInit
  | crcBlk
  | crcApp
  | frmEnc
  | frmAck
  | txRaw
  | frmDec
  | xact
  | tpReset
  | tpFlush
  | srst
  -- WR words to the other writable registers (R94)
  | err0Clr (m : Byte)
  | err1Clr (m : Byte)
  | tmoLo (b : Byte)
  | tmoHi (b : Byte)
  | bufPush (b : Byte)
  | bufPushc (b : Byte)
  | crcUpd (b : Byte)
  | rptrSet (i : Byte)
  -- RD words (R94)
  | rbufPop
  | rd (a : Byte)
  -- carried PN532 commands (R230 to R238); the operand is `data[1..]`
  | getFirmwareVersion (payload : List Byte)
  | samConfiguration (payload : List Byte)
  | rfConfiguration (payload : List Byte)
  | inListPassiveTarget (payload : List Byte)
  | inDataExchange (payload : List Byte)
  | inCommunicateThru (payload : List Byte)
  | writeRegister (payload : List Byte)
  | tgInitAsTarget (payload : List Byte)
deriving DecidableEq, Repr

/-- Why a word is no row of the opcode table. Each has an effect the spec states, given in Machine/Undefined.lean. -/
inductive Reject where
  /-- A WR word to CMD with a code that R92 does not define (R93). -/
  | illegalCmd (code : Byte)
  /-- A WR word to a read-only register (R62). -/
  | readOnly (address : Byte)
  /-- A WR word to a reserved address, 0x18 to 0xFF (R61). -/
  | reserved (address : Byte)
  /-- A carried command whose opcode is not in the document's table: "framed and transacted by the block in exactly the
  same way" (R230). -/
  | unlisted (opcode : Byte) (payload : List Byte)
deriving DecidableEq, Repr

end Sys2Proof
end

