-- ==== Sys2Proof/WellFormed.lean ====
section
/-! DEFINITION. Which instruction terms stand for an operation of the spec: RD excludes address 0x0E, which is RBUF.POP
(R226), and a carried command fits the command buffer, 254 bytes with its opcode (R40, D36). -/

namespace Sys2Proof

/-- A carried command is its opcode byte and at most 253 bytes more (R40: DBUF holds 254 bytes; D36). -/
def payloadFits (payload : List Byte) : Bool := payload.length ≤ 253

/-- The well-formed instructions. -/
def Instr.wellFormed : Instr → Bool
  | .nop | .bufClr | .crcInit | .crcBlk | .crcApp | .frmEnc | .frmAck | .txRaw | .frmDec | .xact
  | .tpReset | .tpFlush | .srst => true
  | .err0Clr _ | .err1Clr _ | .tmoLo _ | .tmoHi _ | .bufPush _ | .bufPushc _ | .crcUpd _ | .rptrSet _ => true
  | .rbufPop => true
  | .rd a => a ≠ 0x0E
  | .getFirmwareVersion p | .samConfiguration p | .rfConfiguration p | .inListPassiveTarget p
  | .inDataExchange p | .inCommunicateThru p | .writeRegister p | .tgInitAsTarget p => payloadFits p

end Sys2Proof
end

