-- ==== Sys2Proof/Decode.lean ====
section
/-! DEFINITION. The decoder, total on every operation word and rejecting by name, and after it the encoder, both from
30_encoding.md (R90, R92, R94), 20_memory.md R61 and 44_carried_commands.md R230. -/

namespace Sys2Proof

/-- Bits 15:8 of a WR word: the register address (R90). -/
def wrAddress (w : Word16) : Byte := w.extractLsb' 8 8

/-- Bits 7:0 of a WR word: the data byte (R90). -/
def wrData (w : Word16) : Byte := w.extractLsb' 0 8

/-- The operation that a write of the code `d` to CMD issues (R92); any other code is illegal (R93). -/
def decodeCmd (d : Byte) : Except Reject Instr :=
  match d.toNat with
  | 0x00 => .ok .nop
  | 0x01 => .ok .bufClr
  | 0x02 => .ok .crcInit
  | 0x03 => .ok .crcBlk
  | 0x04 => .ok .crcApp
  | 0x10 => .ok .frmEnc
  | 0x11 => .ok .frmAck
  | 0x12 => .ok .txRaw
  | 0x20 => .ok .frmDec
  | 0x30 => .ok .xact
  | 0x40 => .ok .tpReset
  | 0x41 => .ok .tpFlush
  | 0x7F => .ok .srst
  | _    => .error (.illegalCmd d)

/-- A WR word by its address (R92, R94); writes to read-only (R62) and reserved (R61) addresses are no operation. -/
def decodeWrite (a d : Byte) : Except Reject Instr :=
  match a.toNat with
  | 0x00 => decodeCmd d
  | 0x02 => .ok (.err0Clr d)
  | 0x03 => .ok (.err1Clr d)
  | 0x04 => .ok (.tmoLo d)
  | 0x05 => .ok (.tmoHi d)
  | 0x07 => .ok (.bufPush d)
  | 0x08 => .ok (.bufPushc d)
  | 0x09 => .ok (.crcUpd d)
  | 0x0D => .ok (.rptrSet d)
  | 0x01 | 0x06 | 0x0A | 0x0B | 0x0C | 0x0E | 0x0F | 0x10 | 0x11 | 0x12 | 0x13 | 0x14 | 0x15 | 0x16 | 0x17 =>
      .error (.readOnly a)
  | _    => .error (.reserved a)

/-- An RD word: address 0x0E is RBUF.POP, every other address is RD (R94). -/
def decodeRead (a : Byte) : Instr :=
  match a.toNat with
  | 0x0E => .rbufPop
  | _    => .rd a

/-- A carried command by its opcode (R230). -/
def decodeCarried (opcode : Byte) (payload : List Byte) : Except Reject Instr :=
  match opcode.toNat with
  | 0x02 => .ok (.getFirmwareVersion payload)
  | 0x14 => .ok (.samConfiguration payload)
  | 0x32 => .ok (.rfConfiguration payload)
  | 0x4A => .ok (.inListPassiveTarget payload)
  | 0x40 => .ok (.inDataExchange payload)
  | 0x42 => .ok (.inCommunicateThru payload)
  | 0x08 => .ok (.writeRegister payload)
  | 0x8C => .ok (.tgInitAsTarget payload)
  | _    => .error (.unlisted opcode payload)

/-- The instruction an operation word stands for, or the name of the reason it stands for none. -/
def decode : OpWord → Except Reject Instr
  | .wr w => decodeWrite (wrAddress w) (wrData w)
  | .rd a => .ok (decodeRead a)
  | .carried opcode payload => decodeCarried opcode payload

/-- The operation word that the opcode table's numbering gives: WR words are 16 bits. An 8-bit row is a CARRIED opcode or
an RD address, and the number alone does not say which: the eight words that the table lists as CARRIED rows are read so,
every other one as an RD word, and a CARRIED row, which has bits for the opcode alone, gets the empty payload: 0x14 is the
one-byte command `[0x14]` (both DESIGN CHOICE, log 2). A host port word carries its format, so `RD 0x02` is never
mistaken for GetFirmwareVersion by the machine. -/
def tableOpWord (nbits w : Nat) : OpWord :=
  if nbits = 16 then .wr (BitVec.ofNat 16 w)
  else
    match decodeCarried (BitVec.ofNat 8 w) [] with
    | .ok _    => .carried (BitVec.ofNat 8 w) []
    | .error _ => .rd (BitVec.ofNat 8 w)

/-- The instruction the decoder reads from a table word of `nbits` bits; none where no word has that width or the decoder
rejects it. -/
def decodeTableWord (nbits w : Nat) : Option Instr :=
  if (nbits = 8 ∨ nbits = 16) ∧ w < 2 ^ nbits then
    match decode (tableOpWord nbits w) with
    | .ok i    => some i
    | .error _ => none
  else none

/-- A WR word `aaaaaaaa dddddddd` (R90). -/
def wrWord (a d : Byte) : OpWord := .wr (a ++ d)

/-- The operation word of an instruction (R92, R94, R230). -/
def encode : Instr → OpWord
  | .nop       => wrWord 0x00 0x00
  | .bufClr    => wrWord 0x00 0x01
  | .crcInit   => wrWord 0x00 0x02
  | .crcBlk    => wrWord 0x00 0x03
  | .crcApp    => wrWord 0x00 0x04
  | .frmEnc    => wrWord 0x00 0x10
  | .frmAck    => wrWord 0x00 0x11
  | .txRaw     => wrWord 0x00 0x12
  | .frmDec    => wrWord 0x00 0x20
  | .xact      => wrWord 0x00 0x30
  | .tpReset   => wrWord 0x00 0x40
  | .tpFlush   => wrWord 0x00 0x41
  | .srst      => wrWord 0x00 0x7F
  | .err0Clr m => wrWord 0x02 m
  | .err1Clr m => wrWord 0x03 m
  | .tmoLo b   => wrWord 0x04 b
  | .tmoHi b   => wrWord 0x05 b
  | .bufPush b => wrWord 0x07 b
  | .bufPushc b => wrWord 0x08 b
  | .crcUpd b  => wrWord 0x09 b
  | .rptrSet i => wrWord 0x0D i
  | .rbufPop   => .rd 0x0E
  | .rd a      => .rd a
  | .getFirmwareVersion p  => .carried 0x02 p
  | .samConfiguration p    => .carried 0x14 p
  | .rfConfiguration p     => .carried 0x32 p
  | .inListPassiveTarget p => .carried 0x4A p
  | .inDataExchange p      => .carried 0x40 p
  | .inCommunicateThru p   => .carried 0x42 p
  | .writeRegister p       => .carried 0x08 p
  | .tgInitAsTarget p      => .carried 0x8C p

/-- `reg_we` in the step of the word: the host port performs a register write (R22, R90). The spec gives the port signals
for WR and RD words only; a CARRIED word's are those of its own step's access, BUF.CLR's write (DESIGN CHOICE, log 27). -/
def OpWord.regWe : OpWord → Bool
  | .wr _ => true
  | .rd _ => false
  | .carried _ _ => true

/-- `reg_re` in the step of the word: the host port performs a register read (R22, R90); none in a CARRIED word's
(DESIGN CHOICE, log 27). -/
def OpWord.regRe : OpWord → Bool
  | .wr _ => false
  | .rd _ => true
  | .carried _ _ => false

/-- `reg_addr` in the step of the word (R22, R90); in a CARRIED word's CMD's, as BUF.CLR's (DESIGN CHOICE, log 27). -/
def OpWord.regAddr : OpWord → Byte
  | .wr w => wrAddress w
  | .rd a => a
  | .carried _ _ => 0x00

/-- `reg_wdata` in the step of the word (R22, R90); in a CARRIED word's BUF.CLR's code. A read has no write data, and the
spec gives the port no value there (DESIGN CHOICE, log 27). -/
def OpWord.regWdata : OpWord → Option Byte
  | .wr w => some (wrData w)
  | .rd _ => none
  | .carried _ _ => some 0x01

end Sys2Proof
end

