-- ==== Sys2Proof/Machine/State.lean ====
section
/-! DEFINITION. The state of the link block, of the transport's queues beside it, and of the agents outside it, as plain
data (10_state.md), the reasons a step can stop, and the state after reset (R50). -/

namespace Sys2Proof.Machine

/-- PHASE, where the running operation is (R30). The values 9 to 15 are "never taken" (R30, U11): the type has the nine. -/
inductive Phase where
  | idle
  | txCmd
  | rdAck
  | rdHdr
  | rdPay
  | rdDcs
  | rdPost
  | txAck
  | drain
deriving DecidableEq, Repr

/-- OPSEL, which multi-step operation is running (R31). -/
inductive OpSel where
  /-- 0: FRM.ENC, FRM.ACK, TX.RAW or TP.FLUSH. -/
  | transmit
  /-- 1: FRM.DEC. -/
  | frmDec
  /-- 2: XACT. -/
  | xact
deriving DecidableEq, Repr

/-- TXSEL, which byte sequence TX_CMD is writing (R31). -/
inductive TxSel where
  /-- 0: the frame `encode(DBUF[0..DLEN))`. -/
  | frame
  /-- 1: the ACK sequence. -/
  | ack
  /-- 2: the raw bytes `DBUF[0..DLEN)`. -/
  | raw
deriving DecidableEq, Repr

/-- STATUS.RESULT (R37). The value 3 is "never taken" (R37, U12): the type has the three. -/
inductive Result where
  | none
  | ok
  | noResp
deriving DecidableEq, Repr

/-- The error kinds of the block, in the order of their codes 0 to 13 (R281, R282). -/
inductive ErrKind where
  | ackMismatch
  | frameStart
  | lenChecksum
  | tfi
  | dataChecksum
  | postamble
  | rspCode
  | lenZero
  | timeout
  | dbufOvf
  | cmdBusy
  | illegalCmd
  | rbufUnderrun
  | emptyCmd
deriving DecidableEq, Repr

/-- HBUF[0..5], the staging of the six bytes of RD_ACK and then of RD_HDR (R43). -/
structure HBuf where
  b0 : Byte
  b1 : Byte
  b2 : Byte
  b3 : Byte
  b4 : Byte
  b5 : Byte
deriving DecidableEq, Repr

/-- Who takes a step (R15, R20). The peer has two kinds of step; the last two are the reset input `rst` being asserted and
released (R22, log 15). -/
inductive Agent where
  | host
  | sequencer
  | timeBase
  | peerSend
  | peerTake
  | rstAssert
  | rstRelease
deriving DecidableEq, Repr

/-- The whole machine: the block (first group), its output ports, the transport, and what the agents outside the block
have still to do. Hidden registers of D13 are kept as the spec describes them. -/
structure State where
  /-- CRC_ACC (R24). -/
  crcAcc : Word16
  /-- `DBUF[0..DLEN)`; DLEN (R25) is its length (R40, U2, log 13). -/
  dbuf : List Byte
  /-- The bytes of RBUF that hold a value (R41, U2); the host sees the first RLEN of them (log 13). -/
  rbuf : List Byte
  /-- RLEN (R26). -/
  rlen : Byte
  /-- RPTR (R27). -/
  rptr : Byte
  /-- REQ_OP (R28). -/
  reqOp : Byte
  /-- RSP_OP (R29). -/
  rspOp : Byte
  /-- PHASE (R30). -/
  phase : Phase
  /-- OPSEL (R31). -/
  opsel : OpSel
  /-- TXSEL (R31). -/
  txsel : TxSel
  /-- TXI (R32). -/
  txi : BitVec 9
  /-- TXN (R32). -/
  txn : BitVec 9
  /-- CNT (R33). -/
  cnt : Byte
  /-- NEED (R33). -/
  need : Byte
  /-- SUM (R34). -/
  sum : Byte
  /-- TIMEOUT, milliseconds (R35). -/
  timeout : Word16
  /-- TLATCH (R36). -/
  tlatch : Word16
  /-- TIMER (R36, R301). -/
  timer : Word16
  /-- STATUS.RESULT (R37). -/
  result : Result
  /-- ERR0 (R38, R281). -/
  err0 : Byte
  /-- ERR1 (R38, R282). -/
  err1 : Byte
  /-- RX_LEN (R39). -/
  rxLen : Byte
  /-- RX_LCS (R39). -/
  rxLcs : Byte
  /-- RX_TFI (R39). -/
  rxTfi : Byte
  /-- RX_DCS (R39). -/
  rxDcs : Byte
  /-- ABORT_PHASE (R39). -/
  abortPhase : Byte
  /-- ABORT_CNT (R39). -/
  abortCnt : Byte
  /-- HBUF (R43). Outside a header read the spec gives its bytes no value (U2); it keeps the last ones written (DESIGN CHOICE,
  log 14). -/
  hbuf : HBuf
  /-- The port `rst` (R22): the reset input is asserted (log 15). -/
  rst : Bool
  /-- The strobe `tp_reset` (R22, R217): up after the step that pulses it, lowered by the next step (log 12). -/
  tpReset : Bool
  /-- The port `reg_rdata` (R22): the byte the last host read returned (log 11). -/
  regRdata : Byte
  /-- RXQ, head first (R46). -/
  rxq : List Byte
  /-- TXQ, head first (R47). -/
  txq : List Byte
  /-- RXQ_DEPTH, TXQ_DEPTH and the policy of a full RXQ (R10, D28, U6); no step changes them (log 7). -/
  transport : Transport
  /-- What the host has still to do, in order (R20, log 3). -/
  hostProgram : List HostAction
  /-- The bytes the peer has still to send, in order (R20, U15, log 18). -/
  peerOut : List Byte
  /-- The bytes the peer has taken from TXQ, oldest first (R73, log 19). -/
  peerIn : List Byte
  /-- Which agents take the next steps, in order (R15, log 4). -/
  schedule : List Agent
  /-- The MODEL's own counter: the index of the next free byte (U3, log 10). -/
  freeIx : Nat
deriving DecidableEq, Repr

/-- Why the machine stops with a fault. -/
inductive Fault where
  /-- Raised by the sequencer only, where an index of a rule names a byte its sequence does not have (`TXI` beyond the
  bytes to write, `RBUF[0]` of an empty RBUF). The rules keep every index inside (R68), so no run from reset reaches it:
  safe (log 16). -/
  | noSuchByte
deriving DecidableEq, Repr

/-- Why the machine gives no meaning. -/
inductive Refusal where
  /-- Raised by exec's arms only, for an instruction that has no meaning yet. Safe. No arm uses it now. -/
  | notModelled (mnemonic : String)
  /-- Raised by the sequencer only, in TX_CMD with more than 254 data bytes: "the function has no value there; the block
  cannot reach it" (U1, R151). Safe (log 16). -/
  | encodeUndefined
deriving DecidableEq, Repr

/-- HBUF after reset has "no value" (R50). DESIGN CHOICE: six zero bytes, which no rule reads before it writes them
(unsafe, log 14). -/
def HBuf.reset : HBuf := ⟨0, 0, 0, 0, 0, 0⟩

/-- The block as R50 leaves it, beside a transport of any parameters whose queues hold anything: "the initial RXQ is an
arbitrary finite byte sequence, TXQ likewise" (U7). No agent outside has anything to do. -/
def State.powerUp (transport : Transport) (rxq txq : List Byte) : State where
  crcAcc := 0x6363
  dbuf := []
  rbuf := []
  rlen := 0
  rptr := 0
  reqOp := 0x00
  rspOp := 0x00
  phase := .idle
  opsel := .transmit
  txsel := .frame
  txi := 0
  txn := 0
  cnt := 0
  need := 0
  sum := 0
  timeout := 500
  tlatch := 0
  timer := 0
  result := .none
  err0 := 0x00
  err1 := 0x00
  rxLen := 0x00
  rxLcs := 0x00
  rxTfi := 0x00
  rxDcs := 0x00
  abortPhase := 0x00
  abortCnt := 0x00
  hbuf := HBuf.reset
  rst := false
  tpReset := false
  regRdata := 0x00
  rxq := rxq
  txq := txq
  transport := transport
  hostProgram := []
  peerOut := []
  peerIn := []
  schedule := []
  freeIx := 0

/-- The machine right after reset (R50). The queues, which the spec leaves unspecified (U7), are empty, and the depths,
which it leaves open (D28), unbounded: DESIGN CHOICE, unsafe (log 7, log 9). `rst` is released (log 15). -/
def State.reset : State :=
  State.powerUp { rxqDepth := .unbounded, txqDepth := .unbounded, rxFull := .stallPeer } [] []

end Sys2Proof.Machine
end

