-- ==== Sys2Proof/Machine/Flags.lean ====
section
/-! DEFINITION. The codes of the status fields, the sticky flags and the STATUS byte: 10_state.md R30, R37, R38,
60_exceptions.md R281, R282, R292, R296. -/

namespace Sys2Proof.Machine

/-- The value of PHASE (R30). -/
def Phase.code : Phase → BitVec 4
  | .idle   => 0
  | .txCmd  => 1
  | .rdAck  => 2
  | .rdHdr  => 3
  | .rdPay  => 4
  | .rdDcs  => 5
  | .rdPost => 6
  | .txAck  => 7
  | .drain  => 8

/-- The read phases: RD_ACK, RD_HDR, RD_PAY, RD_DCS, RD_POST (R17, R205 "2 to 6"). -/
def Phase.isRead : Phase → Bool
  | .rdAck | .rdHdr | .rdPay | .rdDcs | .rdPost => true
  | .idle | .txCmd | .txAck | .drain => false

/-- The value of RESULT (R37). -/
def Result.code : Result → BitVec 2
  | .none   => 0
  | .ok     => 1
  | .noResp => 2

/-- STATUS.BUSY, "1 exactly when PHASE != 0" (R30). -/
def State.busy (s : State) : Bool := s.phase ≠ .idle

/-- The byte a read of STATUS returns: PHASE in 7:4, 0 in bit 3, RESULT in 2:1, BUSY in bit 0 (R37). -/
def State.status (s : State) : Byte :=
  s.phase.code ++ (0#1) ++ s.result.code ++ BitVec.ofBool s.busy

/-- The bits that a kind sets in ERR0 (R281); none for the kinds of ERR1. -/
def ErrKind.mask0 : ErrKind → Byte
  | .ackMismatch  => 0x01
  | .frameStart   => 0x02
  | .lenChecksum  => 0x04
  | .tfi          => 0x08
  | .dataChecksum => 0x10
  | .postamble    => 0x20
  | .rspCode      => 0x40
  | .lenZero      => 0x80
  | .timeout | .dbufOvf | .cmdBusy | .illegalCmd | .rbufUnderrun | .emptyCmd => 0x00

/-- The bits that a kind sets in ERR1 (R282); none for the kinds of ERR0. -/
def ErrKind.mask1 : ErrKind → Byte
  | .timeout      => 0x01
  | .dbufOvf      => 0x02
  | .cmdBusy      => 0x04
  | .illegalCmd   => 0x08
  | .rbufUnderrun => 0x10
  | .emptyCmd     => 0x20
  | .ackMismatch | .frameStart | .lenChecksum | .tfi | .dataChecksum | .postamble | .rspCode | .lenZero => 0x00

/-- `flag E`: "sets its bit and changes nothing else" (R292). -/
def State.flag (k : ErrKind) (s : State) : State :=
  { s with err0 := s.err0 ||| k.mask0, err1 := s.err1 ||| k.mask1 }

/-- Write one to clear: every flag whose bit is 1 in `m` (R38, R296). -/
def clearFlags (flags m : Byte) : Byte := flags &&& ~~~m

end Sys2Proof.Machine
end

