-- ==== Sys2Proof/Machine/Operands.lean ====
section
/-! DEFINITION. The values the operations compute from their operands: the CRC (40_crc16a.md R131, R132), the frame's
fields and bytes (30_encoding.md R95 to R106, 41_framer.md R151), the views of 16-bit registers, and the indexed access to
HBUF and the buffers (00_scope.md R13). -/

namespace Sys2Proof.Machine

/-- The initial accumulator (R8, R132). -/
def crcInitial : Word16 := 0x6363

/-- `Step(acc, b)` (R131): `t1` the low byte of the accumulator xor the byte, `t2` the mixing cut to 8 bits, then the
fold into 16 bits. -/
def crcStep (acc : Word16) (b : Byte) : Word16 :=
  let t1 : Byte := b ^^^ acc.setWidth 8
  let t2 : Byte := t1 ^^^ (t1 <<< 4)
  let w : Word16 := t2.setWidth 16
  (acc >>> 8) ^^^ (w <<< 8) ^^^ (w <<< 3) ^^^ (w >>> 4)

/-- The fold of `Step` over a byte sequence, first byte first (R132). -/
def crcFold (acc : Word16) (data : List Byte) : Word16 := data.foldl crcStep acc

/-- `Crc(data)`: the fold from 0x6363 (R132). -/
def crc (data : List Byte) : Word16 := crcFold crcInitial data

/-- Bits 7:0 of a 16-bit register (R24, R35). -/
def lowByte (w : Word16) : Byte := w.extractLsb' 0 8

/-- Bits 15:8 of a 16-bit register (R24, R35). -/
def highByte (w : Word16) : Byte := w.extractLsb' 8 8

/-- Replaces bits 7:0 (R223). -/
def withLow (w : Word16) (b : Byte) : Word16 := highByte w ++ b

/-- Replaces bits 15:8 (R223). -/
def withHigh (w : Word16) (b : Byte) : Word16 := b ++ lowByte w

/-- `crc16a(data)`: two bytes, low byte first (R64, R132). -/
def crc16a (data : List Byte) : List Byte := [lowByte (crc data), highByte (crc data)]

/-- `with_crc16a(data) = data ++ crc16a(data)` (R100, R132). -/
def withCrc16a (data : List Byte) : List Byte := data ++ crc16a data

/-- The sum of a byte sequence modulo 256 (R103: "equally, modulo 256 at every addition"). -/
def byteSum (data : List Byte) : Byte := data.sum

/-- The two's complement modulo 256, `(~x + 1) & 0xFF` (R102, R103). -/
def twosComplement (x : Byte) : Byte := ~~~x + 1

/-- TFI of a frame from host to device (R95). -/
def tfiHost : Byte := 0xD4

/-- TFI of a frame from device to host (R95). -/
def tfiDevice : Byte := 0xD5

/-- LEN of a frame with these data bytes: `len(data) + 1` (R101). -/
def frameLen (data : List Byte) : Byte := BitVec.ofNat 8 (data.length + 1)

/-- LCS of a frame (R102). -/
def frameLcs (data : List Byte) : Byte := twosComplement (frameLen data)

/-- DCS of a frame with the given TFI (R95, R103). -/
def frameDcs (tfi : Byte) (data : List Byte) : Byte := twosComplement (tfi + byteSum data)

/-- The frame of R95 with the given TFI. -/
def frameBytes (tfi : Byte) (data : List Byte) : List Byte :=
  [0x00, 0x00, 0xFF, frameLen data, frameLcs data, tfi] ++ data ++ [frameDcs tfi data, 0x00]

/-- `Encode(data)` (R151), for at most 254 data bytes; beyond, it has no value (U1). -/
def encodeFrame (data : List Byte) : List Byte := frameBytes tfiHost data

/-- `Reframe(data)`, the frame the device side would build (R156). -/
def reframe (data : List Byte) : List Byte := frameBytes tfiDevice data

/-- The ACK frame (R99). -/
def ackBytes : List Byte := [0x00, 0x00, 0xFF, 0x00, 0xFF, 0x00]

/-- The first three bytes of a frame (R95, R176). -/
def startBytes : List Byte := [0x00, 0x00, 0xFF]

/-- The capacity of DBUF and of RBUF (R9, R40, R41). -/
abbrev bufferCapacity : Nat := 254

/-- `HBUF[i] <- b` (R172); HBUF has six bytes and no rule writes another index. -/
def HBuf.set (h : HBuf) (i : Byte) (b : Byte) : HBuf :=
  match i.toNat with
  | 0 => { h with b0 := b }
  | 1 => { h with b1 := b }
  | 2 => { h with b2 := b }
  | 3 => { h with b3 := b }
  | 4 => { h with b4 := b }
  | 5 => { h with b5 := b }
  | _ => h

/-- `HBUF[0..6)`. -/
def HBuf.bytes (h : HBuf) : List Byte := [h.b0, h.b1, h.b2, h.b3, h.b4, h.b5]

/-- `HBUF[0..3)`. -/
def HBuf.start (h : HBuf) : List Byte := [h.b0, h.b1, h.b2]

/-- `MemWrite(RBUF+i, 1, b)` (R13) into a buffer held as the bytes that have a value: the bytes are written in index
order (R182), so byte `i` follows the first `i`. A buffer has 254 bytes; no rule writes beyond (R68). -/
def bufferWrite (buffer : List Byte) (i : Nat) (b : Byte) : List Byte :=
  if i < bufferCapacity then buffer.take i ++ [b] else buffer

/-- Whether a queue of the given depth that holds `n` bytes is not full (D28). -/
def hasRoom (d : Depth) (n : Nat) : Bool :=
  match d with
  | .unbounded     => true
  | .bounded extra => n ≤ extra

end Sys2Proof.Machine
end

