-- ==== Sys2Proof/Machine/Ops.lean ====
section
/-! DEFINITION. The operations the meanings share: the views of registers and ports, the host's write and read access
(20_memory.md R61, R71), the block's reset (R50, R51), the buffer and queue operations, the start of a read phase (R203),
and the abort, which is how this block takes an exception (R290). -/

namespace Sys2Proof.Machine

/-- What a meaning answers. -/
abbrev Outcome := Host.Outcome State Fault Refusal

/-! ### Views (log 20) -/

/-- DLEN (R25): the number of bytes of DBUF that hold a value. -/
def State.dlen (s : State) : Byte := BitVec.ofNat 8 s.dbuf.length

/-- `tx_ready`, "TXQ is not full" (R47). -/
def State.txReady (s : State) : Bool := hasRoom s.transport.txqDepth s.txq.length

/-- `tp_txempty`, "TXQ is empty" (R22). -/
def State.tpTxempty (s : State) : Bool := s.txq.isEmpty

/-- `rx_valid`, "RXQ not empty" (R22). -/
def State.rxValid (s : State) : Bool := !s.rxq.isEmpty

/-- `rx_data`, the head of RXQ (R22). -/
def State.rxData (s : State) : Option Byte := s.rxq.head?

/-- `rx_ready`: the block takes a byte, that is, a read phase wants one (R22, R204). -/
def State.rxReady (s : State) : Bool := s.phase.isRead && decide (s.cnt < s.need)

/-- `tx_valid`: the block offers a byte, that is, a write phase runs (R22, R152, R185). -/
def State.txValid (s : State) : Bool := decide (s.phase = .txCmd) || decide (s.phase = .txAck)

/-- The bytes a write phase writes (R31, R152, R153, R154, R185); none where `Encode` has no value (U1). -/
def State.txBytes (s : State) : Option (List Byte) :=
  match s.phase, s.txsel with
  | .txAck, _ => some ackBytes
  | _, .ack   => some ackBytes
  | _, .raw   => some s.dbuf
  | _, .frame => if s.dbuf.length ≤ bufferCapacity then some (encodeFrame s.dbuf) else none

/-- `tx_data`, the byte the block offers (R22). While `tx_valid` is 0 the spec gives it no value, and the view has none
(DESIGN CHOICE, log 20). -/
def State.txData (s : State) : Option Byte :=
  if s.txValid then s.txBytes.bind (·[s.txi.toNat]?) else none

/-- The form the buffers keep: at most 254 bytes each (R40, R41, D5). -/
def Memory.wf (s : State) : Bool :=
  decide (s.dbuf.length ≤ bufferCapacity) && decide (s.rbuf.length ≤ bufferCapacity)

/-! ### Reset -/

/-- `rst` and SRST: every piece of block state takes the value of R50. RXQ, TXQ and what lies outside the block are not
touched, and `tp_reset` is not pulsed (R51, R320, R323). -/
def State.blockReset (s : State) : State :=
  { State.powerUp s.transport s.rxq s.txq with
    rst := s.rst
    regRdata := s.regRdata
    hostProgram := s.hostProgram
    peerOut := s.peerOut
    peerIn := s.peerIn
    schedule := s.schedule
    freeIx := s.freeIx }

/-! ### The host's accesses -/

/-- A write to a writable register: performed when idle; while BUSY ignored, setting CMD_BUSY (R71). -/
def hostWrite (effect : State → State) (s : State) : Outcome :=
  .next (if s.busy then s.flag .cmdBusy else effect s)

/-- `x[a]` for every address but RDATA (R61): reserved and write-only addresses read 0x00 (R45). -/
def readRegister (a : Byte) (s : State) : Byte :=
  match a.toNat with
  | 0x01 => s.status
  | 0x02 => s.err0
  | 0x03 => s.err1
  | 0x04 => lowByte s.timeout
  | 0x05 => highByte s.timeout
  | 0x06 => s.dlen
  | 0x0A => lowByte s.crcAcc
  | 0x0B => highByte s.crcAcc
  | 0x0C => s.rlen
  | 0x0D => s.rptr
  | 0x0F => s.reqOp
  | 0x10 => s.rspOp
  | 0x11 => s.rxLen
  | 0x12 => s.rxLcs
  | 0x13 => s.rxTfi
  | 0x14 => s.rxDcs
  | 0x15 => s.abortPhase
  | 0x16 => s.abortCnt
  | 0x17 => 0x01
  | _    => 0x00

/-- A host read of RDATA (R42): within RLEN the byte and the advance of RPTR modulo 256; beyond it the flag, RPTR
unchanged, and an unspecified byte, drawn from the free bytes (U3, log 10). A byte of RBUF that holds no value is
unspecified too (R41). -/
def popRdata (s : State) : State :=
  if s.rptr < s.rlen then
    { s with
      regRdata := s.rbuf[s.rptr.toNat]?.getD (Config.freeByte s.freeIx)
      rptr := s.rptr + 1 }
  else
    { s.flag .rbufUnderrun with
      regRdata := Config.freeByte s.freeIx
      freeIx := s.freeIx + 1 }

/-- A host read of the register at `a`; always performed, BUSY or not (R71). -/
def hostRead (a : Byte) (s : State) : State :=
  if a = 0x0E then popRdata s else { s with regRdata := readRegister a s }

/-! ### The buffers -/

/-- BUF.CLR: DLEN <- 0; "the bytes of DBUF lose their values" (R222). -/
def clearDbuf (s : State) : State := { s with dbuf := [] }

/-- The append of one byte to DBUF, or DBUF_OVF when it is full (R221). -/
def pushDbuf (b : Byte) (s : State) : State :=
  if bufferCapacity ≤ s.dbuf.length then s.flag .dbufOvf else { s with dbuf := s.dbuf ++ [b] }

/-! ### Starting an operation -/

/-- The start of a write phase of `n` bytes from the sequence `sel` (R152, R153, R154, R200). -/
def startTx (op : OpSel) (sel : TxSel) (n : Nat) (s : State) : State :=
  { s with opsel := op, txsel := sel, txi := 0, txn := BitVec.ofNat 9 n, phase := .txCmd }

/-- What FRM.DEC and XACT clear and latch at their start (R171, R200). RBUF's bytes lose their values with RLEN = 0
(U2, log 13, log 23). -/
def clearForDecode (s : State) : State :=
  { s with
    result := .none, rlen := 0, rptr := 0, rbuf := []
    rxLen := 0, rxLcs := 0, rxTfi := 0, rxDcs := 0, abortPhase := 0, abortCnt := 0
    tlatch := s.timeout }

/-- `REQ_OP <- DBUF[0]` if `DLEN >= 1` (R28, R152, R200). -/
def latchReqOp (s : State) : State :=
  match s.dbuf with
  | []     => s
  | op :: _ => { s with reqOp := op }

/-- The registers `Enter(P, n)` writes (R203). -/
def loadPhase (p : Phase) (n : Byte) (s : State) : State :=
  { s with phase := p, cnt := 0, need := n, timer := s.tlatch }

/-- `Enter(P, n)` (R203): starts a read phase under a freshly loaded timer. "Only RD_PAY can have n = 0": it then
completes at once, which enters RD_DCS (R182). -/
def enter (p : Phase) (n : Byte) (s : State) : State :=
  if p = .rdPay ∧ n = 0 then loadPhase .rdDcs 1 (loadPhase p n s) else loadPhase p n s

/-! ### Taking an exception -/

/-- `raise E` in a read phase (R290): the flag, the phase and count of the abort, no payload, RESULT = NORESP, idle.
There is no handler and nothing to return from (R296, R297). -/
def raise (k : ErrKind) (s : State) : State :=
  { s.flag k with
    abortPhase := s.phase.code.setWidth 8
    abortCnt := s.cnt
    rlen := 0, rptr := 0, rbuf := []
    result := .noResp
    phase := .idle }

/-! ### The transport -/

/-- `TxByte(b)`: appends b to TXQ (R13). -/
def txByte (b : Byte) (s : State) : State := { s with txq := s.txq ++ [b] }

/-- The peer's sending step (R46): its next byte goes to the tail of RXQ. With RXQ full the transport drops it or the
step is not enabled (U6). -/
def peerSendStep (s : State) : State :=
  match s.peerOut with
  | []        => s
  | b :: rest =>
    if hasRoom s.transport.rxqDepth s.rxq.length then { s with rxq := s.rxq ++ [b], peerOut := rest }
    else
      match s.transport.rxFull with
      | .dropNew   => { s with peerOut := rest }
      | .stallPeer => s

/-- The peer's taking step (R47, R73): the head of TXQ goes to the peer; not enabled when TXQ is empty. -/
def peerTakeStep (s : State) : State :=
  match s.txq with
  | []        => s
  | b :: rest => { s with txq := rest, peerIn := s.peerIn ++ [b] }

/-- The tick step (R205): counts TIMER down in a read phase, and changes nothing outside one. -/
def tickStep (s : State) : State :=
  if s.phase.isRead ∧ 0 < s.timer then { s with timer := s.timer - 1 } else s

end Sys2Proof.Machine
end

