-- ==== Sys2Proof/Machine/Deframer.lean ====
section
/-! DEFINITION. The deframer: the start of FRM.DEC, the receive step and the completion of each read phase, and the
expire step (42_deframer.md R171 to R184, 43_transaction.md R203 to R206). -/

namespace Sys2Proof.Machine

/-- FRM.DEC: the start step of R171. -/
def execFrmDec (s : State) : Outcome :=
  hostWrite (fun s => enter .rdAck 6 { clearForDecode s with opsel := .frmDec }) s

/-- Where the receive step stores the byte, phase by phase: HBUF (R172, R175), RBUF and SUM (R182), RX_DCS (R183), or
nowhere, "only compare it" (R184, R204). -/
def storeByte (b : Byte) (s : State) : State :=
  match s.phase with
  | .rdAck | .rdHdr => { s with hbuf := s.hbuf.set s.cnt b }
  | .rdPay  => { s with rbuf := bufferWrite s.rbuf s.cnt.toNat b, sum := s.sum + b }
  | .rdDcs  => { s with rxDcs := b }
  | .rdPost | .idle | .txCmd | .txAck | .drain => s

/-- The completion of RD_ACK: a mismatch is flagged and tolerated (R172). -/
def completeAck (s : State) : State :=
  enter .rdHdr 6 (if s.hbuf.bytes = ackBytes then s else s.flag .ackMismatch)

/-- The completion of RD_HDR: the latches of R175, then the four checks in their order (R176, R177, R178, R180), the
first that fails ending the operation, then the payload phase (R181). -/
def completeHdr (s : State) : State :=
  let t := { s with rxLen := s.hbuf.b3, rxLcs := s.hbuf.b4, rxTfi := s.hbuf.b5 }
  if t.hbuf.start ≠ startBytes then raise .frameStart t
  else if t.hbuf.b3 + t.hbuf.b4 ≠ 0 then raise .lenChecksum t
  else if t.hbuf.b5 ≠ tfiDevice then raise .tfi t
  else if t.hbuf.b3 = 0 then raise .lenZero t
  else enter .rdPay (t.hbuf.b3 - 1) { t with sum := tfiDevice }

/-- The completion of RD_DCS with the checksum byte `b` (R183). -/
def completeDcs (b : Byte) (s : State) : State :=
  if s.sum + b ≠ 0 then raise .dataChecksum s else enter .rdPost 1 s

/-- The completion of RD_POST with the postamble byte `b` (R184). -/
def completePost (b : Byte) (s : State) : State :=
  if b ≠ 0x00 then raise .postamble s
  else { s with txsel := .ack, txi := 0, txn := 6, phase := .txAck }

/-- `Complete(P)` in the step that receives the last byte `b` of the phase (R203, R204). -/
def complete (b : Byte) (s : State) : State :=
  match s.phase with
  | .rdAck  => completeAck s
  | .rdHdr  => completeHdr s
  | .rdPay  => enter .rdDcs 1 s
  | .rdDcs  => completeDcs b s
  | .rdPost => completePost b s
  | .idle | .txCmd | .txAck | .drain => s

/-- The receive step with the head `b` of RXQ (R204). -/
def receiveStep (b : Byte) (rest : List Byte) (s : State) : State :=
  let t := { storeByte b s with rxq := rest, cnt := s.cnt + 1 }
  if t.cnt = t.need then complete b t else t

/-- The expire step (R206). -/
def expireStep (s : State) : State := raise .timeout s

end Sys2Proof.Machine
end

