-- ==== Sys2Proof/Machine/Framer.lean ====
section
/-! DEFINITION. The framer: the starts of FRM.ENC, FRM.ACK and TX.RAW and the sequencer's step in TX_CMD
(41_framer.md R152 to R154, 43_transaction.md R200). -/

namespace Sys2Proof.Machine

/-- FRM.ENC: the start step of R152. SUM starts at 0xD4; an empty command is accepted and leaves REQ_OP (D16). -/
def execFrmEnc (s : State) : Outcome :=
  hostWrite (fun s =>
    { startTx .transmit .frame (s.dbuf.length + 8) (latchReqOp s) with sum := tfiHost }) s

/-- FRM.ACK: the start step of R153. -/
def execFrmAck (s : State) : Outcome := hostWrite (startTx .transmit .ack 6) s

/-- TX.RAW: the start step of R154; with DLEN = 0 PHASE stays IDLE, the other registers written as the rule lists them. -/
def execTxRaw (s : State) : Outcome :=
  hostWrite (fun s =>
    let t := startTx .transmit .raw s.dbuf.length s
    if s.dbuf = [] then { t with phase := .idle } else t) s

/-- SUM after the byte `b` has been handed over in TX_CMD: with TXSEL = 0 the data bytes, those at index 6 to 5 + DLEN,
are added modulo 256 (R34, R152; DEDUCED, log 17). -/
def sumAfterTx (s : State) (b : Byte) : Byte :=
  if s.txsel = .frame ∧ 6 ≤ s.txi.toNat ∧ s.txi.toNat < 6 + s.dbuf.length then s.sum + b else s.sum

/-- The sequencer's step in TX_CMD once the transport accepts the byte `b` (R152): TxByte, TXI + 1, and with the last
byte IDLE, or for XACT the first read phase (R200). -/
def txCmdAdvance (b : Byte) (s : State) : State :=
  let t := { txByte b s with txi := s.txi + 1, sum := sumAfterTx s b }
  if t.txi = t.txn then
    if t.opsel = .xact then enter .rdAck 6 t else { t with phase := .idle }
  else t

end Sys2Proof.Machine
end

