-- ==== Sys2Proof/Machine/Transaction.lean ====
section
/-! DEFINITION. The transaction: the start of XACT, the echo check, and the last step of a successful decode
(43_transaction.md R200, R211, R213, 42_deframer.md R185). -/

namespace Sys2Proof.Machine

/-- The start step of XACT (R200), refused with EMPTY_CMD on an empty buffer (R213). -/
def startXact (s : State) : State :=
  if s.dbuf = [] then s.flag .emptyCmd
  else { startTx .xact .frame (s.dbuf.length + 8) (clearForDecode (latchReqOp s)) with sum := tfiHost }

/-- XACT (R200). -/
def execXact (s : State) : Outcome := hostWrite startXact s

/-- EchoCheck (R211): an empty payload or another opcode than REQ_OP + 1 modulo 256 is flagged; the first byte goes to
RSP_OP and is stripped whether or not it matches. -/
def echoCheck (s : State) : Outcome :=
  if s.rlen = 0 then .next (s.flag .rspCode)
  else
    match s.rbuf with
    | []        => .fault .noSuchByte
    | op :: rest =>
      let t := if op ≠ s.reqOp + 1 then s.flag .rspCode else s
      .next { t with rspOp := op, rbuf := rest, rlen := s.rlen - 1 }

/-- `RESULT <- OK; PHASE <- IDLE` (R185). -/
def endOk : Outcome → Outcome
  | .next s    => .next { s with result := .ok, phase := .idle }
  | .fault r   => .fault r
  | .refused r => .refused r

/-- What happens in the step that writes the sixth ACK byte: RLEN, for XACT the echo check, then the end (R185). -/
def finishDecode (s : State) : Outcome :=
  let t := { s with rlen := s.rxLen - 1 }
  endOk (if t.opsel = .xact then echoCheck t else .next t)

/-- The sequencer's step in TX_ACK once the transport accepts the byte `b` (R185). -/
def txAckAdvance (b : Byte) (s : State) : Outcome :=
  let t := { txByte b s with txi := s.txi + 1 }
  if t.txi = t.txn then finishDecode t else .next t

end Sys2Proof.Machine
end

