-- ==== Sys2Proof/Machine/Transport.lean ====
section
/-! DEFINITION. The transport operations: TP.RESET and TP.FLUSH (43_transaction.md R217, R218). -/

namespace Sys2Proof.Machine

/-- TP.RESET: pulses `tp_reset`; the transport discards RXQ and TXQ. "No block register changes" (R217). -/
def execTpReset (s : State) : Outcome :=
  hostWrite (fun s => { s with tpReset := true, rxq := [], txq := [] }) s

/-- TP.FLUSH: the start step of R218; with TXQ empty PHASE stays IDLE. -/
def execTpFlush (s : State) : Outcome :=
  hostWrite (fun s =>
    { s with opsel := .transmit, phase := if s.tpTxempty then .idle else .drain }) s

/-- The sequencer's step in DRAIN (R218). -/
def endDrain (s : State) : State := { s with phase := .idle }

end Sys2Proof.Machine
end

