-- ==== Sys2Proof/Machine/Sequencer.lean ====
section
/-! DEFINITION. The sequencer: which step it has enabled and what that step does (R152, R185, R204, R206, R218). -/

namespace Sys2Proof.Machine

/-- Whether the sequencer has an enabled step. R20's "exactly when STATUS.BUSY = 1" is read as "only when": the rules of
the phases make it wait for the transport, for a byte or for the timer (R152, R204, R206, R218, R331; DEDUCED, log 6). -/
def seqEnabled (s : State) : Bool :=
  match s.phase with
  | .idle           => false
  | .txCmd | .txAck => s.txReady
  | .rdAck | .rdHdr | .rdPay | .rdDcs | .rdPost =>
      decide (s.cnt < s.need) && (s.rxValid || decide (s.timer = 0))
  | .drain          => s.tpTxempty

/-- The write step of TX_CMD or TX_ACK: the byte at TXI of the sequence being written. -/
def writeStep (advance : Byte → State → Outcome) (s : State) : Outcome :=
  match s.txBytes with
  | none    => .refused .encodeUndefined
  | some bs =>
    match bs[s.txi.toNat]? with
    | none   => .fault .noSuchByte
    | some b => advance b s

/-- The step of a read phase: a byte in RXQ is received, with priority; else the phase expires (R204, R206). -/
def readStep (s : State) : State :=
  match s.rxq with
  | b :: rest => receiveStep b rest s
  | []        => expireStep s

/-- The sequencer's enabled step, phase by phase. -/
def seqMove (s : State) : Outcome :=
  match s.phase with
  | .idle   => .next s
  | .txCmd  => writeStep (fun b t => .next (txCmdAdvance b t)) s
  | .txAck  => writeStep txAckAdvance s
  | .rdAck | .rdHdr | .rdPay | .rdDcs | .rdPost => .next (readStep s)
  | .drain  => .next (endDrain s)

/-- The sequencer's step; nothing moves where it has none enabled (log 5). -/
def seqStep (s : State) : Outcome := if seqEnabled s then seqMove s else .next s

end Sys2Proof.Machine
end

