-- ==== Sys2Proof/Machine/Carried.lean ====
section
/-! DEFINITION. The PN532 commands the block carries (44_carried_commands.md R230 to R238). "The block frames them all in
the same way and interprets none of them": each stands for the host's `LOAD (opcode ++ payload); XACT` (R112, R256;
DESIGN CHOICE, log 1). The host takes "one register read or write" a step (R15), so the instruction's own step is the first
access, BUF.CLR, and the pushes and XACT are the host's next ones, between which every agent may move. TIMEOUT is the
host's to set before (R325). -/

namespace Sys2Proof.Machine

/-- `LOAD data` (R112) after its BUF.CLR: a BUF.PUSH of each byte. -/
def pushActions (data : List Byte) : List HostAction := data.map (fun b => .word (encode (.bufPush b)))

/-- The accesses of `LOAD data; XACT` after the first. -/
def carriedRest (data : List Byte) : List HostAction := pushActions data ++ [.word (encode .xact)]

/-- The first access of `LOAD data; XACT`, the others being the host's next. While BUSY each is a write that is ignored and
sets CMD_BUSY (R71). -/
def carry (data : List Byte) (s : State) : Outcome :=
  hostWrite clearDbuf { s with hostProgram := carriedRest data ++ s.hostProgram }

/-- GetFirmwareVersion, code 0x02 (R231). -/
def execGetFirmwareVersion (payload : List Byte) (s : State) : Outcome := carry (0x02 :: payload) s

/-- SAMConfiguration, code 0x14 (R232). -/
def execSamConfiguration (payload : List Byte) (s : State) : Outcome := carry (0x14 :: payload) s

/-- RFConfiguration, code 0x32 (R233). -/
def execRfConfiguration (payload : List Byte) (s : State) : Outcome := carry (0x32 :: payload) s

/-- InListPassiveTarget, code 0x4A (R234). -/
def execInListPassiveTarget (payload : List Byte) (s : State) : Outcome := carry (0x4A :: payload) s

/-- InDataExchange, code 0x40 (R235). -/
def execInDataExchange (payload : List Byte) (s : State) : Outcome := carry (0x40 :: payload) s

/-- InCommunicateThru, code 0x42 (R236). -/
def execInCommunicateThru (payload : List Byte) (s : State) : Outcome := carry (0x42 :: payload) s

/-- WriteRegister, code 0x08 (R237). -/
def execWriteRegister (payload : List Byte) (s : State) : Outcome := carry (0x08 :: payload) s

/-- TgInitAsTarget, code 0x8C (R238). -/
def execTgInitAsTarget (payload : List Byte) (s : State) : Outcome := carry (0x8C :: payload) s

end Sys2Proof.Machine
end

