-- ==== Sys2Proof/Machine/Undefined.lean ====
section
/-! DEFINITION. What the block does with a word that is no row of the opcode table: 30_encoding.md R93, 20_memory.md R61,
R62, 44_carried_commands.md R230 (log 22). Each rule states the effect, so none of them stops the machine. -/

namespace Sys2Proof.Machine

/-- The effect of a rejected word, by the reason of its rejection. -/
def execRejected (r : Reject) (s : State) : Outcome :=
  match r with
  | .illegalCmd _ => hostWrite (·.flag .illegalCmd) s
  | .readOnly _   => .next s
  | .reserved _   => .next s
  | .unlisted opcode payload => carry (opcode :: payload) s

end Sys2Proof.Machine
end

