-- ==== Sys2Proof/Machine/Agents.lean ====
section
/-! DEFINITION. Which agent takes the next step (00_scope.md R15, 10_state.md R20), what every step does first, and
the moves of the agents other than the host. -/

namespace Sys2Proof.Machine

/-- Whether the host has an action that gets it further: a WAIT that would read BUSY = 1 does not (R112). -/
def hostReady (s : State) : Bool :=
  match s.hostProgram with
  | []                       => false
  | .wait :: _                => !s.busy
  | .word _ :: _ | .readRsp :: _ => true

/-- The agent that moves next: the head of the schedule. An exhausted schedule falls back to one weakly fair order in
which "ticks come only when the sequencer has no enabled step" (95_test_vectors.md): the sequencer, then the peer's next
byte, then the host's next action unless it is a WAIT on a busy block, then the peer taking a byte, then a tick
(DESIGN CHOICE, log 4). -/
def nextAgent (s : State) : Agent :=
  match s.schedule with
  | a :: _ => a
  | []     =>
    if seqEnabled s then .sequencer
    else if s.peerOut ≠ [] ∧ (hasRoom s.transport.rxqDepth s.rxq.length = true ∨ s.transport.rxFull = .dropNew) then
      .peerSend
    else if hostReady s then .host
    else if s.txq ≠ [] then .peerTake
    else .timeBase

/-- What every step does first: it uses up the head of the schedule, and the strobe of an earlier TP.RESET is down
(R22, log 12). -/
def beginStep (s : State) : State := { s with schedule := s.schedule.tail, tpReset := false }

/-- `rst` asserted: the block is in the state of R50 from this step on (R22, R320). -/
def rstAssertStep (s : State) : State := { s.blockReset with rst := true }

/-- `rst` released: the block is left in the state of R50; nothing happens if it was not asserted (R22, log 15). -/
def rstReleaseStep (s : State) : State := if s.rst then { s.blockReset with rst := false } else s

/-- The step of an agent other than the host. -/
def agentStep (a : Agent) (s : State) : Outcome :=
  match a with
  | .host      => .next s
  | .sequencer => seqStep s
  | .timeBase  => .next (tickStep s)
  | .peerSend  => .next (peerSendStep s)
  | .peerTake  => .next (peerTakeStep s)
  | .rstAssert  => .next (rstAssertStep s)
  | .rstRelease => .next (rstReleaseStep s)

/-- The state in which the next step is the host's and its next word is `w`. -/
def withHostWord (s : State) (w : OpWord) : State :=
  { s with hostProgram := .word w :: s.hostProgram, schedule := .host :: s.schedule }

end Sys2Proof.Machine
end

