-- ==== Sys2Proof/Machine/Buffer.lean ====
section
/-! DEFINITION. The buffer operations and the register reads: BUF.CLR, BUF.PUSH, RPTR.SET, RBUF.POP, RD
(43_transaction.md R221, R222, R224 to R226, 10_state.md R42). -/

namespace Sys2Proof.Machine

/-- BUF.CLR: `DLEN <- 0` (R222). -/
def execBufClr (s : State) : Outcome := hostWrite clearDbuf s

/-- BUF.PUSH b: appends b to DBUF, or flags DBUF_OVF (R221). -/
def execBufPush (b : Byte) (s : State) : Outcome := hostWrite (pushDbuf b) s

/-- RPTR.SET i: `RPTR <- i`, any value (R224). -/
def execRptrSet (i : Byte) (s : State) : Outcome :=
  hostWrite (fun s => { s with rptr := i }) s

/-- RBUF.POP: the read of RDATA, "allowed while BUSY" (R225, R42). -/
def execRbufPop (s : State) : Outcome := .next (hostRead 0x0E s)

/-- RD a: returns `x[a]`, no side effect, "allowed while BUSY" (R226). The term `rd 0x0E` is not well-formed (its word
is RBUF.POP's, R226) and reads RDATA as that address does (DESIGN CHOICE, log 25). -/
def execRd (a : Byte) (s : State) : Outcome := .next (hostRead a s)

end Sys2Proof.Machine
end

