-- ==== Sys2Proof/Machine/Control.lean ====
section
/-! DEFINITION. NOP, SRST, the flag clears and the timeout writes: 43_transaction.md R220, R223, 10_state.md R51,
60_exceptions.md R296. -/

namespace Sys2Proof.Machine

/-- NOP: "No effect" (R220); the BUSY rule R71 applies to it as to any write of CMD. -/
def execNop (s : State) : Outcome := hostWrite id s

/-- SRST: the block state of R50, "the one write the block accepts while BUSY" (R51). -/
def execSrst (s : State) : Outcome := .next s.blockReset

/-- ERR0.CLR m: `ERR0 <- ERR0 & ~m` (R296). -/
def execErr0Clr (m : Byte) (s : State) : Outcome :=
  hostWrite (fun s => { s with err0 := clearFlags s.err0 m }) s

/-- ERR1.CLR m: `ERR1 <- ERR1 & ~m` (R296). -/
def execErr1Clr (m : Byte) (s : State) : Outcome :=
  hostWrite (fun s => { s with err1 := clearFlags s.err1 m }) s

/-- TMO.LO b: `TIMEOUT[7:0] <- b` (R223). -/
def execTmoLo (b : Byte) (s : State) : Outcome :=
  hostWrite (fun s => { s with timeout := withLow s.timeout b }) s

/-- TMO.HI b: `TIMEOUT[15:8] <- b` (R223). -/
def execTmoHi (b : Byte) (s : State) : Outcome :=
  hostWrite (fun s => { s with timeout := withHigh s.timeout b }) s

end Sys2Proof.Machine
end

