-- ==== Sys2Proof/Machine/Crc.lean ====
section
/-! DEFINITION. The CRC16A unit: CRC.INIT, CRC.UPD, BUF.PUSHC, CRC.BLK, CRC.APP (40_crc16a.md R134 to R138). -/

namespace Sys2Proof.Machine

/-- CRC.INIT: `CRC_ACC <- 0x6363` (R134). -/
def execCrcInit (s : State) : Outcome :=
  hostWrite (fun s => { s with crcAcc := crcInitial }) s

/-- CRC.UPD b: `CRC_ACC <- Step(CRC_ACC, b)` (R135). -/
def execCrcUpd (b : Byte) (s : State) : Outcome :=
  hostWrite (fun s => { s with crcAcc := crcStep s.crcAcc b }) s

/-- BUF.PUSHC b: BUF.PUSH and CRC.UPD in one step; a refused byte is not absorbed (R136). -/
def execBufPushc (b : Byte) (s : State) : Outcome :=
  hostWrite (fun s =>
    if bufferCapacity ≤ s.dbuf.length then s.flag .dbufOvf
    else { s with dbuf := s.dbuf ++ [b], crcAcc := crcStep s.crcAcc b }) s

/-- CRC.BLK: `CRC_ACC <- Crc(DBUF[0..DLEN))`, from 0x6363 every time (R133, R137). -/
def execCrcBlk (s : State) : Outcome :=
  hostWrite (fun s => { s with crcAcc := crc s.dbuf }) s

/-- CRC.APP: appends the low and then the high byte of CRC_ACC, or neither when both do not fit (R138). -/
def execCrcApp (s : State) : Outcome :=
  hostWrite (fun s =>
    if bufferCapacity < s.dbuf.length + 2 then s.flag .dbufOvf
    else { s with dbuf := s.dbuf ++ [lowByte s.crcAcc, highByte s.crcAcc] }) s

end Sys2Proof.Machine
end

