-- ==== Sys2Proof/Machine/Dispatch.lean ====
section
/-! DEFINITION. The dispatch: one arm per constructor of `Instr`. -/

namespace Sys2Proof.Machine

def exec (i : Instr) (s : State) : Host.Outcome State Fault Refusal :=
  match i with
  | .nop => Sys2Proof.Machine.execNop s
  | .bufClr => Sys2Proof.Machine.execBufClr s
  | .crcInit => Sys2Proof.Machine.execCrcInit s
  | .crcBlk => Sys2Proof.Machine.execCrcBlk s
  | .crcApp => Sys2Proof.Machine.execCrcApp s
  | .frmEnc => Sys2Proof.Machine.execFrmEnc s
  | .frmAck => Sys2Proof.Machine.execFrmAck s
  | .txRaw => Sys2Proof.Machine.execTxRaw s
  | .frmDec => Sys2Proof.Machine.execFrmDec s
  | .xact => Sys2Proof.Machine.execXact s
  | .tpReset => Sys2Proof.Machine.execTpReset s
  | .tpFlush => Sys2Proof.Machine.execTpFlush s
  | .srst => Sys2Proof.Machine.execSrst s
  | .err0Clr m => Sys2Proof.Machine.execErr0Clr m s
  | .err1Clr m => Sys2Proof.Machine.execErr1Clr m s
  | .tmoLo b => Sys2Proof.Machine.execTmoLo b s
  | .tmoHi b => Sys2Proof.Machine.execTmoHi b s
  | .bufPush b => Sys2Proof.Machine.execBufPush b s
  | .bufPushc b => Sys2Proof.Machine.execBufPushc b s
  | .crcUpd b => Sys2Proof.Machine.execCrcUpd b s
  | .rptrSet b => Sys2Proof.Machine.execRptrSet b s
  | .rbufPop => Sys2Proof.Machine.execRbufPop s
  | .rd a => Sys2Proof.Machine.execRd a s
  | .getFirmwareVersion p => Sys2Proof.Machine.execGetFirmwareVersion p s
  | .samConfiguration p => Sys2Proof.Machine.execSamConfiguration p s
  | .rfConfiguration p => Sys2Proof.Machine.execRfConfiguration p s
  | .inListPassiveTarget p => Sys2Proof.Machine.execInListPassiveTarget p s
  | .inDataExchange p => Sys2Proof.Machine.execInDataExchange p s
  | .inCommunicateThru p => Sys2Proof.Machine.execInCommunicateThru p s
  | .writeRegister p => Sys2Proof.Machine.execWriteRegister p s
  | .tgInitAsTarget p => Sys2Proof.Machine.execTgInitAsTarget p s

end Sys2Proof.Machine
end

