-- ==== Sys2Proof/Machine/Access.lean ====
section
/-! DEFINITION. The host's move: one register access (00_scope.md R15, 30_encoding.md R90, R112), and what is left of any
agent's move while `rst` is asserted (10_state.md R22). -/

namespace Sys2Proof.Machine

/-- The host's access with the operation word `w`: the decoded instruction, or the effect of a word that is none. -/
def perform (w : OpWord) (s : State) : Outcome :=
  match decode w with
  | .ok i    => exec i s
  | .error r => execRejected r s

/-- One `RD STATUS` of WAIT, which stays the host's next action until the value read has BUSY = 0 (R112, R113). -/
def waitStep (s : State) : State :=
  let t := hostRead 0x01 s
  if t.regRdata.getLsbD 0 then { t with hostProgram := .wait :: t.hostProgram } else t

/-- The `RD RLEN` of READRSP; as many RBUF.POP as the value read are the host's next actions (R112). -/
def readRspStep (s : State) : State :=
  let t := hostRead 0x0C s
  { t with hostProgram := List.replicate t.regRdata.toNat (.word (encode .rbufPop)) ++ t.hostProgram }

/-- The host's move: it takes its next action and makes one access; with none left it has no step. -/
def hostMove (s : State) : Outcome :=
  match s.hostProgram with
  | []              => .next s
  | .word w :: rest  => perform w { s with hostProgram := rest }
  | .wait :: rest    => .next (waitStep { s with hostProgram := rest })
  | .readRsp :: rest => .next (readRspStep { s with hostProgram := rest })

/-- The move of an agent. -/
def move (a : Agent) (s : State) : Outcome :=
  match a with
  | .host => hostMove s
  | .sequencer | .timeBase | .peerSend | .peerTake | .rstAssert | .rstRelease => agentStep a s

/-- What is left of a host access while `rst` is asserted: the block stays in the state of R50 and pulses nothing, so a
write is lost and a read returns the reset value (log 15). -/
def holdReset (s : State) (o : Outcome) : Outcome :=
  match o with
  | .next t    => .next { t.blockReset with rxq := s.rxq, txq := s.txq }
  | .fault r   => .fault r
  | .refused r => .refused r

/-- The move of an agent while `rst` is asserted: "while asserted and at release the state is that of rule R50" (R22).
The sequencer and the ticks have nothing to do, the peer's bytes move as ever (R323). -/
def resetMove (a : Agent) (s : State) : Outcome :=
  match a with
  | .host => holdReset s (hostMove s.blockReset)
  | .sequencer | .timeBase => .next s.blockReset
  | .peerSend | .peerTake | .rstAssert | .rstRelease => agentStep a s.blockReset

end Sys2Proof.Machine
end

