-- ==== Sys2Proof/Machine/Step.lean ====
section
/-! DEFINITION. One step of the machine: one agent's atomic move (00_scope.md R15). -/

namespace Sys2Proof.Machine

/-- One step: the agent that moves next moves, under the reset input's hold where that is asserted (R22). -/
def step (s : State) : Host.Outcome State Fault Refusal :=
  if s.rst then resetMove (nextAgent s) (beginStep s) else move (nextAgent s) (beginStep s)

/-- The state whose next step is the host's and whose next operation word is the table word `w` of `nbits` bits: the host
presents it on the register port, and `rst` is released, under which no word is performed (log 3). -/
def State.withFetchWord (s : State) (nbits w : Nat) : State :=
  { withHostWord s (tableOpWord nbits w) with rst := false }

end Sys2Proof.Machine
end

