-- ==== Sys2Proof/Machine/DecodeFunction.lean ====
section
/-! DEFINITION. The deframer as a function of the bytes that RXQ delivers (42_deframer.md R188), "for a model that wants
the result without the steps". The machine does not call it: it is the other side of a refinement statement. -/

namespace Sys2Proof.Machine

/-- What `Decode` returns (R188): the payload, or "no response" with the kind whose flag is set. -/
inductive Decoded where
  | response (payload : List Byte)
  | noResponse (k : ErrKind)
deriving DecidableEq, Repr

/-- One run of `Decode`: what it returns, whether ACK_MISMATCH was flagged, and the bytes left in RXQ. -/
structure DecodeRun where
  outcome     : Decoded
  ackMismatch : Bool
  left        : List Byte
deriving DecidableEq, Repr

/-- `RxRead(n)` when RXQ holds `rx` and nothing more arrives (R13): the bytes read, fewer than n on a timeout, and the
bytes left. -/
def rxRead (n : Nat) (rx : List Byte) : List Byte × List Byte := (rx.take n, rx.drop n)

/-- R188 from the data checksum on: `payload` has been read, `rx` is what follows. -/
def decodeTail (payload rx : List Byte) : Decoded × List Byte :=
  match rx with
  | []             => (.noResponse .timeout, [])
  | dcs :: rest    =>
    if tfiDevice + payload.sum + dcs ≠ 0 then (.noResponse .dataChecksum, rest)
    else
      match rest with
      | []           => (.noResponse .timeout, [])
      | post :: left => if post ≠ 0x00 then (.noResponse .postamble, left) else (.response payload, left)

/-- R188 from the payload on, for a header that passed its checks with length byte `len`. -/
def decodePayload (len : Byte) (rx : List Byte) : Decoded × List Byte :=
  let r := rxRead (len.toNat - 1) rx
  if r.1.length < len.toNat - 1 then (.noResponse .timeout, []) else decodeTail r.1 r.2

/-- R188 from the header on. -/
def decodeHeader (rx : List Byte) : Decoded × List Byte :=
  match rx with
  | h0 :: h1 :: h2 :: len :: lcs :: tfi :: rest =>
    if [h0, h1, h2] ≠ startBytes then (.noResponse .frameStart, rest)
    else if len + lcs ≠ 0 then (.noResponse .lenChecksum, rest)
    else if tfi ≠ tfiDevice then (.noResponse .tfi, rest)
    else if len = 0 then (.noResponse .lenZero, rest)
    else decodePayload len rest
  | _ => (.noResponse .timeout, [])

/-- `Decode` (R188) of the bytes `rx`. -/
def decodeFunction (rx : List Byte) : DecodeRun :=
  let r := rxRead 6 rx
  if r.1.length < 6 then { outcome := .noResponse .timeout, ackMismatch := false, left := [] }
  else
    let h := decodeHeader r.2
    { outcome := h.1, ackMismatch := decide (r.1 ≠ ackBytes), left := h.2 }

end Sys2Proof.Machine
end

