-- ==== Sys2Proof/Machine/HostPrograms.lean ====
section
/-! DEFINITION. The host's programs of the spec as lists of the host's actions: the pseudo-operations of 30_encoding.md R112
and, from 45_host_sequences.md, the initialization sequence and the command builders whose bytes the document gives. The
host is outside the block (R5, log 24); the machine calls none of these. -/

namespace Sys2Proof.Machine

/-- The action that issues an instruction's word. -/
def issue (i : Instr) : HostAction := .word (encode i)

/-- `SETTMO ms` (R112). -/
def setTmo (ms : Word16) : List HostAction := [issue (.tmoLo (lowByte ms)), issue (.tmoHi (highByte ms))]

/-- `LOAD data` (R112). -/
def loadProgram (data : List Byte) : List HostAction := issue .bufClr :: pushActions data

/-- `crc16a data` (R112): the two values read are the result. -/
def crc16aProgram (data : List Byte) : List HostAction :=
  loadProgram data ++ [issue .crcBlk, issue (.rd 0x0A), issue (.rd 0x0B)]

/-- `with_crc16a data` (R112): DBUF then holds the result. -/
def withCrc16aProgram (data : List Byte) : List HostAction := loadProgram data ++ [issue .crcBlk, issue .crcApp]

/-- `send_frame data, ms` (R112). -/
def sendFrameProgram (data : List Byte) (ms : Word16) : List HostAction :=
  setTmo ms ++ loadProgram data ++ [issue .xact, .wait, issue (.rd 0x01)]

/-- The initialization of the PN532 (R253, R254) without the host's verdicts: WAKE_PREAMBLE is an open parameter (D31) and
`retries` the RFConfiguration bytes the document does not give (R233, N7). -/
def initProgram (preamble retries : List Byte) : List HostAction :=
  [issue .tpReset] ++ loadProgram preamble ++ [issue .txRaw, .wait, issue .frmAck, .wait]
    ++ sendFrameProgram [0x02] 1000
    ++ sendFrameProgram [0x14, 0x01, 0x00] 1000
    ++ sendFrameProgram (0x32 :: retries) 1000

/-- The initialization with the implementation's own WAKE_PREAMBLE (R10, D31). -/
def initProgramHere (retries : List Byte) : List HostAction := initProgram Config.wakePreamble retries

/-- WUPB by streaming (R258 step 4): the CRC covers the payload and not the opcode (R236). -/
def wupbProgram (afi : Byte) (ms : Word16) : List HostAction :=
  setTmo ms ++ [issue .bufClr, issue (.bufPush 0x42), issue .crcInit, issue (.bufPushc 0x05), issue (.bufPushc afi),
   issue (.bufPushc 0x08), issue .crcApp, issue .xact, .wait]

/-- The command bytes of `send_broadcast(payload)`: InCommunicateThru of the payload with its CRC (R236, R259). -/
def broadcastCommand (payload : List Byte) : List Byte := 0x42 :: withCrc16a payload

/-- The command bytes of `transceive` to a target (R235, C4): the target id occurs once. -/
def transceiveCommand (target : Byte) (apdu : List Byte) : List Byte := 0x40 :: target :: apdu

/-- The select-application helper (R265): `00 A4 04 00 <len> <aid bytes>`. `<len>` is one byte; the spec is silent on an aid
of more than 255 bytes, and the length is then cut to its low 8 bits (DESIGN CHOICE, log 26). -/
def selectApplication (aid : List Byte) : List Byte :=
  [0x00, 0xA4, 0x04, 0x00, BitVec.ofNat 8 aid.length] ++ aid

/-- The echoed opcode that a command expects, modulo 256 (R211, R230). -/
def expectedEcho (opcode : Byte) : Byte := opcode + 1

end Sys2Proof.Machine
end

