-- ==== Sys2Proof/Safety.lean ====
section
/-! DEFINITION. The terms claims are stated in: whose turn it is, runs under a schedule, the state that reset leaves, and
the invariant of the machine. -/

namespace Sys2Proof.Machine

/-- `s`, with agent `a` to move next. -/
def turn (a : Agent) (s : State) : State := { s with schedule := a :: s.schedule }

/-- `n` steps of the machine (Host/Core.lean). -/
def run (n : Nat) (s : State) : Outcome := Host.Core.run Sys2Proof.core n s

/-- The moves of these agents, the host's accesses left out, one after the other. -/
def agentRun : List Agent → State → Outcome
  | [], s => .next s
  | a :: as, s =>
    match agentStep a s with
    | .next t    => agentRun as t
    | .fault r   => .fault r
    | .refused r => .refused r

/-- Instructions performed one after the other, each at the state the one before left. -/
def execAll : List Instr → State → Outcome
  | [], s => .next s
  | i :: is, s =>
    match exec i s with
    | .next t    => execAll is t
    | .fault r   => .fault r
    | .refused r => .refused r

/-- Every row of the reset table that gives a value (R50). -/
structure BlockAtReset (s : State) : Prop where
  crcAcc : s.crcAcc = 0x6363
  dlen : s.dlen = 0
  rlen : s.rlen = 0
  rptr : s.rptr = 0
  reqOp : s.reqOp = 0x00
  rspOp : s.rspOp = 0x00
  phase : s.phase = .idle
  busy : s.busy = false
  result : s.result = .none
  status : s.status = 0x00
  opsel : s.opsel = .transmit
  txsel : s.txsel = .frame
  txi : s.txi = 0
  txn : s.txn = 0
  cnt : s.cnt = 0
  need : s.need = 0
  sum : s.sum = 0
  timeout : s.timeout = 500
  tlatch : s.tlatch = 0
  timer : s.timer = 0
  err0 : s.err0 = 0x00
  err1 : s.err1 = 0x00
  rxLen : s.rxLen = 0x00
  rxLcs : s.rxLcs = 0x00
  rxTfi : s.rxTfi = 0x00
  rxDcs : s.rxDcs = 0x00
  abortPhase : s.abortPhase = 0x00
  abortCnt : s.abortCnt = 0x00
  version : readRegister 0x17 s = 0x01
  txValid : s.txValid = false
  rxReady : s.rxReady = false
  tpReset : s.tpReset = false

/-- What holds from the start of FRM.DEC or XACT until it ends (R171, R182, R200). -/
structure Decoding (s : State) : Prop where
  noResult : s.result = .none
  noLength : s.rlen = 0
  rewound : s.rptr = 0
  noAbort : s.abortPhase = 0 ∧ s.abortCnt = 0
  operation : s.opsel ≠ .transmit
  opcode : s.opsel = .xact → s.dbuf.head? = some s.reqOp

/-- A read phase of `n` bytes in progress (R33, R203, R205). -/
structure Reading (n : Byte) (s : State) : Prop where
  decoding : Decoding s
  needs : s.need = n
  counts : s.cnt < s.need
  deadline : s.timer ≤ s.tlatch

/-- The payload has been received and its running sum is SUM (R34, R182). -/
structure Received (s : State) : Prop where
  length : s.rbuf.length + 1 = s.rxLen.toNat
  running : s.sum = tfiDevice + s.rbuf.sum

/-- A write of TX_CMD in progress (R31, R32, R34). -/
structure Writing (s : State) : Prop where
  index : s.txi < s.txn
  count : s.txn.toNat =
    match s.txsel with
    | .frame => s.dbuf.length + 8
    | .ack   => 6
    | .raw   => s.dbuf.length
  operation : s.opsel ≠ .frmDec
  running : s.txsel = .frame → s.sum = tfiHost + (s.dbuf.take (s.txi.toNat - 6)).sum
  transaction : s.opsel = .xact → s.txsel = .frame ∧ s.rbuf = [] ∧ Decoding s

/-- The invariant of each phase. -/
def PhaseInv (s : State) : Prop :=
  match s.phase with
  | .idle   => True
  | .txCmd  => Writing s
  | .rdAck  => Reading 6 s ∧ s.rbuf = []
  | .rdHdr  => Reading 6 s ∧ s.rbuf = []
  | .rdPay  => Reading (s.rxLen - 1) s ∧ s.rxLen ≠ 0 ∧ s.rbuf.length = s.cnt.toNat ∧ s.sum = tfiDevice + s.rbuf.sum
  | .rdDcs  => Reading 1 s ∧ Received s
  | .rdPost => Reading 1 s ∧ Received s
  | .txAck  => Decoding s ∧ Received s ∧ s.txi < 6 ∧ s.txn = 6
  | .drain  => s.opsel = .transmit

/-- The invariant of the machine: the buffers keep their form, the reserved bits of ERR1 read 0 (R38), the abort record
goes with RESULT = NORESP (R39, R290), a response is shown only with RESULT = OK (R202, R338) and is then all of RBUF, the
sequencer's registers are as its phase says, and while `rst` is asserted the block is as its reset leaves it (R22). -/
structure Invariant (s : State) : Prop where
  buffers : Memory.wf s = true
  reserved : s.err1 &&& 0xC0 = 0
  aborted : s.result = .noResp ↔ s.abortPhase ≠ 0
  shown : s.rlen ≠ 0 → s.result = .ok
  whole : s.result = .ok → s.rlen.toNat = s.rbuf.length
  phase : PhaseInv s
  held : s.rst = true → s.blockReset = s

end Sys2Proof.Machine
end

