-- ==== Sys2Proof/Certificates/Slice0/Obligations.lean ====
section
/-! DEFINITION. The statements for the provers. Each docstring names the rule of spec/ it formalises, or, where it rests on
a choice of the model, the log entry. `exec` is the host's operation, `perform` the host's access with any operation word,
`seqStep` the sequencer's step, `agentRun` a sequence of agents' moves. -/

namespace Sys2Proof.Spec

open Sys2Proof.Machine

/-- `Step(acc, b)` as R131 prints it, on unbounded integers with the document's two masks. -/
def stepByRule (acc b : Nat) : Nat :=
  let t1 := b ^^^ (acc &&& 0xFF)
  let t2 := (t1 ^^^ (t1 <<< 4)) &&& 0xFF
  ((acc >>> 8) ^^^ (t2 <<< 8) ^^^ (t2 <<< 3) ^^^ (t2 >>> 4)) &&& 0xFFFF

/-- `Crc(data)` as R132 prints it: the fold of R131 from 0x6363. -/
def crcByRule (data : List Byte) : Nat := (data.map BitVec.toNat).foldl stepByRule 0x6363

/-- One iteration of the bit-serial form of R139. -/
def bitStep (acc : Word16) : Word16 := if acc.getLsbD 0 then (acc >>> 1) ^^^ 0x8408 else acc >>> 1

/-- The bit-serial form of R139: absorb the byte, then eight iterations. -/
def bitSerial (acc : Word16) (b : Byte) : Word16 :=
  bitStep (bitStep (bitStep (bitStep (bitStep (bitStep (bitStep (bitStep (acc ^^^ b.setWidth 16))))))))

/-- The unbounded integer sum of a byte sequence (R11). -/
def natSum (data : List Byte) : Nat := (data.map BitVec.toNat).sum

/-- The byte with this value modulo 256. -/
def byteOf (n : Nat) : Byte := BitVec.ofNat 8 n

/-- The addresses a write of which is an operation: R71's list, CMD, ERR0, ERR1, TIMEOUT_LO, TIMEOUT_HI, DDATA, DCRC,
CRC_IN, RPTR. -/
def writable : List Byte := [0x00, 0x02, 0x03, 0x04, 0x05, 0x07, 0x08, 0x09, 0x0D]

/-- R62's list: STATUS, DLEN, CRC_LO, CRC_HI, RLEN, RDATA, REQ_OP, RSP_OP, RX_LEN, RX_LCS, RX_TFI, RX_DCS, ABORT_PHASE,
ABORT_CNT, VERSION. -/
def readOnly : List Byte :=
  [0x01, 0x06, 0x0A, 0x0B, 0x0C, 0x0E, 0x0F, 0x10, 0x11, 0x12, 0x13, 0x14, 0x15, 0x16, 0x17]

/-- The CMD codes R92 defines. -/
def legalCodes : List Byte :=
  [0x00, 0x01, 0x02, 0x03, 0x04, 0x10, 0x11, 0x12, 0x20, 0x30, 0x40, 0x41, 0x7F]

/-- STATUS (R37): PHASE in bits 7:4, RESULT in bits 2:1, BUSY in bit 0. -/
def statusByte (s : State) : Byte :=
  byteOf (s.phase.code.toNat * 16 + s.result.code.toNat * 2 + if s.phase = .idle then 0 else 1)

/-- The readable registers of R61 but RDATA, each with the value its own rule gives it. -/
def registerMap (s : State) : List (Byte × Byte) :=
  [(0x00, 0x00),
   (0x01, statusByte s),
   (0x02, s.err0), (0x03, s.err1),
   (0x04, byteOf (s.timeout.toNat % 256)), (0x05, byteOf (s.timeout.toNat / 256)),
   (0x06, byteOf s.dbuf.length), (0x07, 0x00), (0x08, 0x00), (0x09, 0x00),
   (0x0A, byteOf (s.crcAcc.toNat % 256)), (0x0B, byteOf (s.crcAcc.toNat / 256)),
   (0x0C, s.rlen), (0x0D, s.rptr), (0x0F, s.reqOp), (0x10, s.rspOp),
   (0x11, s.rxLen), (0x12, s.rxLcs), (0x13, s.rxTfi), (0x14, s.rxDcs),
   (0x15, s.abortPhase), (0x16, s.abortCnt), (0x17, 0x01)]

/-- The eight carried commands and their opcodes (R230). -/
def carriedTable : List ((List Byte → Instr) × Byte) :=
  [(Instr.getFirmwareVersion, 0x02), (Instr.samConfiguration, 0x14), (Instr.rfConfiguration, 0x32),
   (Instr.inListPassiveTarget, 0x4A), (Instr.inDataExchange, 0x40), (Instr.inCommunicateThru, 0x42),
   (Instr.writeRegister, 0x08), (Instr.tgInitAsTarget, 0x8C)]

/-- The host's accesses of `LOAD data; XACT` after its BUF.CLR, written out (R112): DDATA for each byte, then CMD 0x30. -/
def loadRest (data : List Byte) : List HostAction :=
  data.map (fun b => .word (.wr (0x07#8 ++ b))) ++ [.word (.wr 0x0030)]

/-- `s` with XACT just started on the command `op :: payload` (the start step of R200). With RLEN = 0 the bytes of RBUF lose
their values (R41, U2; DEDUCED, log 23). -/
def transacting (op : Byte) (payload : List Byte) (s : State) : State :=
  { s with
    dbuf := op :: payload, reqOp := op
    opsel := .xact, txsel := .frame, txi := 0, txn := BitVec.ofNat 9 (payload.length + 9), sum := 0xD4
    result := .none, rlen := 0, rptr := 0, rbuf := []
    rxLen := 0, rxLcs := 0, rxTfi := 0, rxDcs := 0, abortPhase := 0, abortCnt := 0
    tlatch := s.timeout, phase := .txCmd }

/-- `s` after an abort (R290) that sets the given bits of ERR0 and ERR1 and records the phase and the count.
With RLEN = 0 the bytes of RBUF lose their values (R41, U2; DEDUCED, log 23); HBUF, which U2 gives no value now, keeps its
bytes (log 14). -/
def aborted (bits0 bits1 phase count : Byte) (s : State) : State :=
  { s with
    err0 := s.err0 ||| bits0, err1 := s.err1 ||| bits1
    abortPhase := phase, abortCnt := count
    rlen := 0, rptr := 0, rbuf := [], result := .noResp, phase := .idle }

/-- `s` at the start of the read phase `p` of `n` bytes (R203). -/
def reading (p : Phase) (n : Byte) (s : State) : State :=
  { s with phase := p, cnt := 0, need := n, timer := s.tlatch }

/-- `w` is the word of the host operation `i`; on an idle block `i` has this effect, all of it in that step; while BUSY the
write is ignored and sets CMD_BUSY (20_memory.md R71, the precondition of every such rule). -/
def HostOperation (w : Word16) (i : Instr) (effect : State → State) : Prop :=
  decode (.wr w) = .ok i ∧
  (∀ s : State, s.phase = .idle → exec i s = .next (effect s)) ∧
  (∀ s : State, s.phase ≠ .idle → exec i s = .next { s with err1 := s.err1 ||| 0x04 })

/-- The sequencer's step in TX_CMD of the operation `op` that writes the sequence `bytes` (R152): enabled when the transport
accepts a byte, it appends the byte at TXI and advances TXI; with TXSEL = 0 the data bytes, those at index 6 to 5 + DLEN, are
added into SUM, in the step that writes them (DEDUCED, log 17). With the last byte a transmit-only operation goes to IDLE, and XACT does `Enter(RD_ACK, 6)` (R200). While the
transport accepts nothing, nothing moves. -/
def TransmitStep (op : OpSel) (sel : TxSel) (bytes : State → List Byte) : Prop :=
  ∀ (s : State) (b : Byte), s.phase = .txCmd → s.opsel = op → s.txsel = sel → s.dbuf.length ≤ 254 →
    (bytes s)[s.txi.toNat]? = some b →
    (s.txReady = true →
      let u : State := { s with
        txq := s.txq ++ [b], txi := s.txi + 1
        sum := if sel = .frame ∧ 6 ≤ s.txi.toNat ∧ s.txi.toNat < 6 + s.dbuf.length
          then byteOf (s.sum.toNat + b.toNat) else s.sum }
      seqStep s = .next (
        if s.txi + 1 ≠ s.txn then u else if op = .xact then reading .rdAck 6 u else { u with phase := .idle })) ∧
    (s.txReady = false → seqStep s = .next s)

/-- The bits of ERR0 that a check at the end of a read phase can abort with (R281): in RD_HDR FRAME_START, LEN_CHECKSUM, TFI
and LEN_ZERO, in RD_DCS DATA_CHECKSUM, in RD_POST POSTAMBLE. -/
def checkBits (p : Phase) : List Byte :=
  match p with
  | .rdHdr  => [0x02, 0x04, 0x08, 0x80]
  | .rdDcs  => [0x10]
  | .rdPost => [0x20]
  | .rdAck | .rdPay | .idle | .txCmd | .txAck | .drain => []

/-- `s` with the byte `b` received in RD_HDR, RD_DCS or RD_POST, and what that phase latches (R175, R183, R184). -/
def received (b : Byte) (rest : List Byte) (s : State) : State :=
  let u : State := { s with rxq := rest, cnt := s.cnt + 1 }
  match s.phase with
  | .rdHdr =>
    let h := s.hbuf.set s.cnt b
    { u with hbuf := h, rxLen := h.b3, rxLcs := h.b4, rxTfi := h.b5 }
  | .rdDcs => { u with rxDcs := b }
  | .rdPost | .rdAck | .rdPay | .idle | .txCmd | .txAck | .drain => u

/-- The pieces of State outside the block, which neither `rst` nor SRST touches. -/
def SameOutside (s t : State) : Prop :=
  t.rxq = s.rxq ∧ t.txq = s.txq ∧ t.transport = s.transport ∧ t.hostProgram = s.hostProgram ∧
    t.peerOut = s.peerOut ∧ t.peerIn = s.peerIn ∧ t.freeIx = s.freeIx ∧ t.schedule = s.schedule

/-- A step under the reset input: it is asserted, or this step asserts it (R22, log 15). -/
def byReset (s : State) : Prop := s.rst = true ∨ nextAgent s = .rstAssert

/-- The instruction that the host's next word is, if the host moves next and the word decodes. -/
def hostIssues (s : State) (i : Instr) : Prop :=
  nextAgent s = .host ∧ ∃ w rest, s.hostProgram = .word w :: rest ∧ decode w = .ok i

end Sys2Proof.Spec

section

open Sys2Proof Sys2Proof.Machine Sys2Proof.Spec

/-! ### Reset -/

/-- R50. Asserting `rst` in any state, and State.reset itself, leave every row of the reset table that gives a value; RXQ,
TXQ and the agents outside are as before. What State.reset holds beside the table is the model's choice (log 7, log 9), and
no clause says it. -/
def Obligations.ResetLeavesTheTable : Prop :=
  (∀ s : State, ∃ t, agentStep .rstAssert s = .next t ∧ BlockAtReset t ∧ SameOutside s t) ∧ BlockAtReset State.reset

/-- R22, "while asserted and at release the state is that of rule R50", in the model's reading (log 15: what is left of each
agent's move; log 11: `reg_rdata` is kept through SRST; log 12: the strobe `tp_reset` falls with the next step). Whatever moves while `rst` is asserted, the block is then as the
table says; it stays asserted until its release, and the host's accesses move no queue. A release of what was not asserted
changes nothing. -/
def Obligations.RstHoldsTheBlock : Prop :=
  (∀ s : State, s.rst = true → ∃ t, step s = .next t ∧ BlockAtReset t ∧ (t.rst = true ↔ nextAgent s ≠ .rstRelease) ∧
    (nextAgent s = .host → t.rxq = s.rxq ∧ t.txq = s.txq)) ∧
  (∀ s : State, nextAgent s = .rstAssert → ∃ t, step s = .next t ∧ BlockAtReset t ∧ t.rst = true ∧
    t.rxq = s.rxq ∧ t.txq = s.txq) ∧
  (∀ s : State, nextAgent s = .rstRelease → s.rst = false →
    step s = .next { s with schedule := s.schedule.tail, tpReset := false }) ∧
  (∀ s : State, ∃ t, exec .srst s = .next t ∧ t.rst = s.rst ∧ t.regRdata = s.regRdata)

/-- R51. SRST does the same to the block in any state, BUSY or not, touches neither queue and leaves `tp_reset` at 0; and it
is the one write the block accepts while BUSY: any other changes nothing, or sets ERR1.CMD_BUSY alone. -/
def Obligations.SrstResetsTheBlock : Prop :=
  decode (.wr 0x007F) = .ok .srst ∧ (∀ s : State, ∃ t, exec .srst s = .next t ∧ BlockAtReset t ∧ SameOutside s t) ∧
  (∀ (s : State) (w : Word16), s.phase ≠ .idle → w ≠ 0x007F →
    perform (.wr w) s = .next s ∨ perform (.wr w) s = .next { s with err1 := s.err1 ||| 0x04 })

/-! ### The host's accesses -/

/-- Rests on log 12 (the strobe `tp_reset` falls with the next step). With `rst` released, a step on the host's turn performs
the word on its port, and if that decodes to an instruction, it is exec of that instruction; on another agent's turn it is
that agent's move. Around the move the step uses up the turn and the word and lowers the strobe. The last clause, on the
table's words, rests on log 2 (how a table word is read) and log 3 (`withFetchWord` presents it and releases `rst`). -/
def Obligations.StepPerformsTheWordOrTheMove : Prop :=
  (∀ (s : State) (w : OpWord), s.rst = false → step (withHostWord s w) = perform w { s with tpReset := false }) ∧
  (∀ (s : State) (w : OpWord) (i : Instr), s.rst = false → decode w = .ok i →
    step (withHostWord s w) = exec i { s with tpReset := false }) ∧
  (∀ (s : State) (a : Agent), s.rst = false → a ≠ .host →
    step (turn a s) = agentStep a { s with tpReset := false }) ∧
  (∀ (s : State) (nbits w : Nat) (i : Instr), decodeTableWord nbits w = some i →
    step (s.withFetchWord nbits w) = exec i { s with tpReset := false, rst := false })

/-- R112 and R113 in the model's form (log 18: WAIT and READRSP are actions of the host; log 12: the strobe falls). A step of WAIT reads STATUS; WAIT
remains while the value read has BUSY = 1 and is over when it has 0. READRSP reads RLEN, and RLEN pops are then to do. -/
def Obligations.WaitEndsWhenNotBusy : Prop :=
  ∀ (s : State) (rest : List HostAction), s.rst = false → nextAgent s = .host →
    let u : State := { s with schedule := s.schedule.tail, tpReset := false }
    (s.hostProgram = .wait :: rest →
      (s.phase ≠ .idle → step s = .next { u with regRdata := statusByte s }) ∧
      (s.phase = .idle → step s = .next { u with regRdata := statusByte s, hostProgram := rest })) ∧
    (s.hostProgram = .readRsp :: rest → step s = .next { u with
      regRdata := s.rlen
      hostProgram := List.replicate s.rlen.toNat (.word (.rd 0x0E)) ++ rest })

/-- R71. While BUSY a write to a writable register is ignored and sets ERR1.CMD_BUSY, but 0x7F to CMD is accepted; reads
are performed. -/
def Obligations.BusyIgnoresWrites : Prop :=
  ∀ s : State, s.phase ≠ .idle →
    (∀ w : Word16, wrAddress w ∈ writable → w ≠ 0x007F →
      perform (.wr w) s = .next { s with err1 := s.err1 ||| 0x04 }) ∧
    (∃ t, perform (.wr 0x007F) s = .next t ∧ BlockAtReset t) ∧
    (∀ p ∈ registerMap s, perform (.rd p.1) s = .next { s with regRdata := p.2 }) ∧
    (∃ t, perform (.rd 0x0E) s = .next t ∧ t.phase = s.phase ∧ (s.rptr < s.rlen → t.rptr = s.rptr + 1))

/-- R93. An illegal CMD code sets ILLEGAL_CMD and changes nothing else while idle, and CMD_BUSY only while BUSY. -/
def Obligations.IllegalCodesOnlyFlag : Prop :=
  ∀ (s : State) (c : Byte), c ∉ legalCodes →
    (s.phase = .idle → perform (.wr (0x00#8 ++ c)) s = .next { s with err1 := s.err1 ||| 0x08 }) ∧
    (s.phase ≠ .idle → perform (.wr (0x00#8 ++ c)) s = .next { s with err1 := s.err1 ||| 0x04 })

/-- R62. A write to a read-only register changes no state and sets no flag, BUSY or not. -/
def Obligations.ReadOnlyWritesChangeNothing : Prop :=
  ∀ (s : State) (w : Word16), wrAddress w ∈ readOnly → perform (.wr w) s = .next s

/-- R61, first two sentences. A reserved address, 0x18 to 0xFF, reads 0x00 and ignores writes. -/
def Obligations.ReservedAddressesAreInert : Prop :=
  ∀ s : State,
    (∀ w : Word16, 0x18 ≤ (wrAddress w).toNat → perform (.wr w) s = .next s) ∧
    (∀ a : Byte, 0x18 ≤ a.toNat → perform (.rd a) s = .next { s with regRdata := 0x00 })

/-- R226. RD a, for every address but 0x0E, returns `x[a]` as the map and the register's rule define it, in any state, and
has no side effect. -/
def Obligations.RdReturnsTheRegister : Prop :=
  (∀ a : Byte, a ≠ 0x0E → decode (.rd a) = .ok (.rd a)) ∧
  (∀ s : State,
    (∀ p ∈ registerMap s, exec (.rd p.1) s = .next { s with regRdata := p.2 }) ∧
    (∀ a : Byte, 0x18 ≤ a.toNat → exec (.rd a) s = .next { s with regRdata := 0x00 }))

/-- R42 and R225. Within RLEN a read of RDATA returns `RBUF[RPTR]` and advances RPTR modulo 256; beyond it the byte is
unspecified (any byte, log 10), RBUF_UNDERRUN is set and RPTR unchanged. BUSY or not. -/
def Obligations.RbufPopReadsAndAdvances : Prop :=
  decode (.rd 0b00001110) = .ok .rbufPop ∧
  (∀ (s : State) (b : Byte), s.rptr < s.rlen → s.rbuf[s.rptr.toNat]? = some b →
    exec .rbufPop s = .next { s with regRdata := b, rptr := byteOf (s.rptr.toNat + 1) }) ∧
  (∀ s : State, ¬ s.rptr < s.rlen →
    ∃ b n, exec .rbufPop s = .next { s with regRdata := b, err1 := s.err1 ||| 0x10, freeIx := n })

/-- R220. -/
def Obligations.NopChangesNothing : Prop := HostOperation 0x0000 .nop id

/-- 60_exceptions.md R296, the two clears: a flag stays exactly if the host did not write a one to its bit. -/
def Obligations.WritingOnesClearsFlags : Prop :=
  ∀ m : Byte,
    HostOperation (0x02#8 ++ m) (.err0Clr m) (fun s => { s with err0 := s.err0 &&& ~~~m }) ∧
    HostOperation (0x03#8 ++ m) (.err1Clr m) (fun s => { s with err1 := s.err1 &&& ~~~m })

/-- R223. -/
def Obligations.TimeoutBytesAreWritten : Prop :=
  ∀ b : Byte,
    HostOperation (0x04#8 ++ b) (.tmoLo b) (fun s =>
      { s with timeout := BitVec.ofNat 16 (s.timeout.toNat / 256 * 256 + b.toNat) }) ∧
    HostOperation (0x05#8 ++ b) (.tmoHi b) (fun s =>
      { s with timeout := BitVec.ofNat 16 (b.toNat * 256 + s.timeout.toNat % 256) })

/-- R224. Any value is accepted, and a value of RLEN or more makes the next RBUF.POP an underrun. -/
def Obligations.RptrSetThenPop : Prop :=
  ∀ i : Byte,
    HostOperation (0x0D#8 ++ i) (.rptrSet i) (fun s => { s with rptr := i }) ∧
    (∀ s : State, s.phase = .idle → s.rlen ≤ i → ∃ b n, execAll [.rptrSet i, .rbufPop] s =
      .next { s with rptr := i, regRdata := b, err1 := s.err1 ||| 0x10, freeIx := n })

/-- R221, R136 and R222. BUF.PUSH appends below 254 bytes and is dropped with DBUF_OVF at 254; BUF.PUSHC absorbs the byte as
well, by the step of R131, or in the overflow case only flags; BUF.CLR empties DBUF. -/
def Obligations.PushAppendsOrOverflows : Prop :=
  (∀ b : Byte,
    HostOperation (0x07#8 ++ b) (.bufPush b) (fun s =>
      if s.dbuf.length < 254 then { s with dbuf := s.dbuf ++ [b] } else { s with err1 := s.err1 ||| 0x02 }) ∧
    HostOperation (0x08#8 ++ b) (.bufPushc b) (fun s =>
      if s.dbuf.length < 254 then
        { s with dbuf := s.dbuf ++ [b], crcAcc := BitVec.ofNat 16 (stepByRule s.crcAcc.toNat b.toNat) }
      else { s with err1 := s.err1 ||| 0x02 })) ∧
  HostOperation 0x0001 .bufClr (fun s => { s with dbuf := [] })

/-! ### The CRC unit -/

/-- R134 and R135. CRC.INIT sets 0x6363; CRC.UPD absorbs its byte by the step of R131. -/
def Obligations.CrcAccumulates : Prop :=
  HostOperation 0x0002 .crcInit (fun s => { s with crcAcc := 0x6363 }) ∧
  (∀ b : Byte, HostOperation (0x09#8 ++ b) (.crcUpd b) (fun s =>
    { s with crcAcc := BitVec.ofNat 16 (stepByRule s.crcAcc.toNat b.toNat) }))

/-- R137, with the fold of R132. The old accumulator has no influence. -/
def Obligations.CrcBlkFoldsTheBuffer : Prop :=
  HostOperation 0x0003 .crcBlk (fun s => { s with crcAcc := BitVec.ofNat 16 (crcByRule s.dbuf) })

/-- R138. CRC.APP appends the low byte and then the high byte, at DLEN up to 252, and neither at 253 or 254. -/
def Obligations.CrcAppAppendsLowThenHigh : Prop :=
  HostOperation 0x0004 .crcApp (fun s =>
    if s.dbuf.length ≤ 252 then
      { s with dbuf := s.dbuf ++ [byteOf (s.crcAcc.toNat % 256), byteOf (s.crcAcc.toNat / 256)] }
    else { s with err1 := s.err1 ||| 0x02 })

/-- R139. -/
def Obligations.StepEqualsBitSerialForm : Prop :=
  ∀ (acc : Word16) (b : Byte), crcStep acc b = bitSerial acc b

/-- R140. -/
def Obligations.StepIsLinear : Prop :=
  crcStep 0 0 = 0 ∧
  (∀ (a a' : Word16) (b b' : Byte), crcStep (a ^^^ a') (b ^^^ b') = crcStep a b ^^^ crcStep a' b') ∧
  (∀ (acc : Word16) (b : Byte), crcStep acc b = crcStep (acc ^^^ b.setWidth 16) 0)

/-- R141, on the host's own operations as well: absorbing a message and its two CRC bytes leaves zero. -/
def Obligations.ZeroResidue : Prop :=
  (∀ data : List Byte, crc (withCrc16a data) = 0x0000) ∧
  (∀ s : State, s.phase = .idle → s.dbuf.length ≤ 252 →
    ∃ t, execAll [.crcBlk, .crcApp, .crcBlk] s = .next t ∧ t.crcAcc = 0x0000)

/-! ### The framer -/

/-- R97 and R155, with the lengths of R96 and the fields of R95. -/
def Obligations.FramesSatisfyTheirInvariants : Prop :=
  ∀ (tfi : Byte) (data : List Byte), data.length ≤ 254 →
    ∃ len lcs dcs : Byte,
      frameBytes tfi data = [0x00, 0x00, 0xFF, len, lcs, tfi] ++ data ++ [dcs, 0x00] ∧
      len.toNat = data.length + 1 ∧
      (len.toNat + lcs.toNat) % 256 = 0 ∧
      (tfi.toNat + natSum data + dcs.toNat) % 256 = 0 ∧
      (frameBytes tfi data).length = data.length + 8

/-- R152: the start step and the sequencer's step of FRM.ENC. Rests on log 17 for SUM after each single step (R34). -/
def Obligations.FrmEncStartsAndSteps : Prop :=
  HostOperation 0x0010 .frmEnc (fun s => { s with
    reqOp := s.dbuf.headD s.reqOp
    opsel := .transmit, txsel := .frame, txi := 0, txn := BitVec.ofNat 9 (s.dbuf.length + 8)
    sum := 0xD4, phase := .txCmd }) ∧
  TransmitStep .transmit .frame (fun s => encodeFrame s.dbuf)

/-- R153 and R154: the start steps and the sequencer's steps of FRM.ACK and TX.RAW. -/
def Obligations.AckAndRawStartAndStep : Prop :=
  HostOperation 0x0011 .frmAck (fun s =>
    { s with opsel := .transmit, txsel := .ack, txi := 0, txn := 6, phase := .txCmd }) ∧
  TransmitStep .transmit .ack (fun _ => [0x00, 0x00, 0xFF, 0x00, 0xFF, 0x00]) ∧
  HostOperation 0x0012 .txRaw (fun s => { s with
    opsel := .transmit, txsel := .raw, txi := 0, txn := BitVec.ofNat 9 s.dbuf.length
    phase := if s.dbuf = [] then .idle else .txCmd }) ∧
  TransmitStep .transmit .raw (fun s => s.dbuf)

/-- R152, whole: after FRM.ENC, `DLEN + 8` sequencer steps hand exactly `Encode(DBUF[0..DLEN))` to an accepting transport
and the block is idle; nothing else but REQ_OP and the hidden registers (SUM: log 17) has changed. -/
def Obligations.FrmEncSendsTheFrame : Prop :=
  ∀ s : State, s.phase = .idle → s.dbuf.length ≤ 254 → s.transport.txqDepth = .unbounded →
    ∃ u, exec .frmEnc s = .next u ∧
      agentRun (List.replicate (s.dbuf.length + 8) .sequencer) u = .next { s with
        reqOp := s.dbuf.headD s.reqOp
        opsel := .transmit, txsel := .frame
        txi := BitVec.ofNat 9 (s.dbuf.length + 8), txn := BitVec.ofNat 9 (s.dbuf.length + 8)
        sum := byteOf (0xD4 + natSum s.dbuf)
        txq := s.txq ++ encodeFrame s.dbuf }

/-- R153 and R154, whole: FRM.ACK hands over the six ACK bytes, TX.RAW the bytes of DBUF unframed. -/
def Obligations.AckAndRawReachTheTransport : Prop :=
  ∀ s : State, s.phase = .idle → s.transport.txqDepth = .unbounded →
    (∃ u, exec .frmAck s = .next u ∧
      agentRun (List.replicate 6 .sequencer) u = .next { s with
        opsel := .transmit, txsel := .ack, txi := 6, txn := 6
        txq := s.txq ++ [0x00, 0x00, 0xFF, 0x00, 0xFF, 0x00] }) ∧
    (s.dbuf.length ≤ 254 → ∃ u, exec .txRaw s = .next u ∧
      agentRun (List.replicate s.dbuf.length .sequencer) u = .next { s with
        opsel := .transmit, txsel := .raw
        txi := BitVec.ofNat 9 s.dbuf.length, txn := BitVec.ofNat 9 s.dbuf.length
        txq := s.txq ++ s.dbuf })

/-- R34 and R152, with SUM as of log 17: the checksum byte that an implementation makes on the fly from SUM is the one that `Encode` gives. -/
def Obligations.RunningSumMakesTheChecksum : Prop :=
  ∀ s : State, Invariant s → s.phase = .txCmd → s.txsel = .frame → s.txi.toNat = 6 + s.dbuf.length →
    s.txData = some (byteOf (256 - s.sum.toNat))

/-! ### The read phases -/

/-- The start step of R171, with `Enter(RD_ACK, 6)` of R203. With RLEN = 0 the bytes of RBUF lose their values (R41, R338, U2;
DEDUCED, log 23). -/
def Obligations.FrmDecStarts : Prop :=
  HostOperation 0x0020 .frmDec (fun s => { s with
    opsel := .frmDec
    result := .none, rlen := 0, rptr := 0, rbuf := []
    rxLen := 0, rxLcs := 0, rxTfi := 0, rxDcs := 0, abortPhase := 0, abortCnt := 0
    tlatch := s.timeout, phase := .rdAck, cnt := 0, need := 6, timer := s.timeout })

/-- R172. Each byte of RD_ACK goes to `HBUF[CNT]`; with the sixth a mismatch is flagged and tolerated, and RD_HDR
begins. -/
def Obligations.AckMismatchIsTolerated : Prop :=
  ∀ (s : State) (b : Byte) (rest : List Byte), s.phase = .rdAck → s.need = 6 → s.rxq = b :: rest →
    (s.cnt < 5 → seqStep s = .next { s with rxq := rest, hbuf := s.hbuf.set s.cnt b, cnt := s.cnt + 1 }) ∧
    (s.cnt = 5 → seqStep s = .next (reading .rdHdr 6 { s with
      rxq := rest
      hbuf := { s.hbuf with b5 := b }
      err0 :=
        if [s.hbuf.b0, s.hbuf.b1, s.hbuf.b2, s.hbuf.b3, s.hbuf.b4, b] = [0x00, 0x00, 0xFF, 0x00, 0xFF, 0x00]
        then s.err0 else s.err0 ||| 0x01 }))

/-- R175 to R178, R180 and R181. Each byte of RD_HDR goes to `HBUF[CNT]`; the step that receives the sixth latches the header
and makes the four checks in their order; the first that fails aborts by R290 and the later ones are not made; else the
payload phase begins, or with no payload byte the checksum phase (R182). -/
def Obligations.HeaderChecksInOrder : Prop :=
  ∀ (s : State) (b : Byte) (rest : List Byte), s.phase = .rdHdr → s.need = 6 → s.rxq = b :: rest →
    (s.cnt < 5 → seqStep s = .next { s with rxq := rest, hbuf := s.hbuf.set s.cnt b, cnt := s.cnt + 1 }) ∧
    (s.cnt = 5 →
      let u : State := { s with
        rxq := rest, hbuf := { s.hbuf with b5 := b }, cnt := 6, rxLen := s.hbuf.b3, rxLcs := s.hbuf.b4, rxTfi := b }
      seqStep s = .next (
        if ¬ (s.hbuf.b0 = 0x00 ∧ s.hbuf.b1 = 0x00 ∧ s.hbuf.b2 = 0xFF) then aborted 0x02 0x00 3 6 u
        else if (s.hbuf.b3.toNat + s.hbuf.b4.toNat) % 256 ≠ 0 then aborted 0x04 0x00 3 6 u
        else if b ≠ 0xD5 then aborted 0x08 0x00 3 6 u
        else if s.hbuf.b3 = 0 then aborted 0x80 0x00 3 6 u
        else if s.hbuf.b3 = 1 then reading .rdDcs 1 { u with sum := 0xD5 }
        else reading .rdPay (byteOf (s.hbuf.b3.toNat - 1)) { u with sum := 0xD5 }))

/-- R182, the receive step: the byte goes to `RBUF[CNT]` and into SUM, RLEN stays as it is, and the last one enters
RD_DCS. -/
def Obligations.PayloadBytesAreStored : Prop :=
  ∀ (s : State) (b : Byte) (rest : List Byte),
    s.phase = .rdPay → s.cnt < s.need → s.cnt.toNat < 254 → s.rbuf.length = s.cnt.toNat → s.rxq = b :: rest →
    let u : State := { s with
      rxq := rest, rbuf := s.rbuf ++ [b], sum := byteOf (s.sum.toNat + b.toNat), cnt := s.cnt + 1 }
    seqStep s = .next (if s.cnt.toNat + 1 = s.need.toNat then reading .rdDcs 1 u else u)

/-- R183 and R184: the receive steps of RD_DCS and RD_POST, and their timeouts. -/
def Obligations.ChecksumAndPostambleAreChecked : Prop :=
  ∀ s : State, s.need = 1 → s.cnt = 0 →
    (∀ (b : Byte) (rest : List Byte), s.rxq = b :: rest → s.phase = .rdDcs →
      let u : State := { s with rxq := rest, rxDcs := b, cnt := 1 }
      seqStep s = .next (
        if (s.sum.toNat + b.toNat) % 256 ≠ 0 then aborted 0x10 0x00 5 1 u else reading .rdPost 1 u)) ∧
    (∀ (b : Byte) (rest : List Byte), s.rxq = b :: rest → s.phase = .rdPost →
      let u : State := { s with rxq := rest, cnt := 1 }
      seqStep s = .next (
        if b ≠ 0x00 then aborted 0x20 0x00 6 1 u
        else { u with txsel := .ack, txi := 0, txn := 6, phase := .txAck })) ∧
    (s.rxq = [] → s.timer = 0 → s.phase = .rdDcs → seqStep s = .next (aborted 0x00 0x01 5 0 s)) ∧
    (s.rxq = [] → s.timer = 0 → s.phase = .rdPost → seqStep s = .next (aborted 0x00 0x01 6 0 s))

/-- R290. A step that ends a read phase in IDLE is an abort, and its whole next state is given: TIMEOUT where RXQ is empty and
the timer has run out, else the failure of one of the phase's checks on its last byte, which is received and latched first;
one flag, the phase and the count, no payload, RESULT = NORESP, and nothing else. -/
def Obligations.AbortsAreRecorded : Prop :=
  ∀ s t : State, s.phase.isRead = true → seqStep s = .next t → t.phase = .idle →
    (s.rxq = [] ∧ s.timer = 0 ∧ t = aborted 0x00 0x01 (byteOf s.phase.code.toNat) s.cnt s) ∨
    (∃ b rest, s.rxq = b :: rest ∧ s.cnt + 1 = s.need ∧ ∃ m ∈ checkBits s.phase,
      t = aborted m 0x00 (byteOf s.phase.code.toNat) s.need (received b rest s))

/-- R206, beside the priority of R204. In a read phase that wants more bytes: a byte in RXQ is taken whatever TIMER holds,
never sets TIMEOUT, and does not reload the timer unless it ends the phase; with RXQ empty and TIMER 0 the phase aborts with
TIMEOUT, recording the phase and the count; with RXQ empty and TIMER running nothing moves. -/
def Obligations.ReceiveBeforeExpire : Prop :=
  ∀ s : State, s.phase.isRead = true → s.cnt < s.need →
    (∀ b rest, s.rxq = b :: rest → ∃ t, seqStep s = .next t ∧ t.rxq = rest ∧ t.err1 = s.err1 ∧
      (s.cnt + 1 ≠ s.need → t.timer = s.timer ∧ t.phase = s.phase)) ∧
    (s.rxq = [] → s.timer = 0 →
      seqStep s = .next (aborted 0x00 0x01 (byteOf s.phase.code.toNat) s.cnt s)) ∧
    (s.rxq = [] → s.timer ≠ 0 → seqStep s = .next s)

/-- R205. -/
def Obligations.TickCountsOnlyInReadPhases : Prop :=
  ∀ s : State,
    (s.phase ∈ [.rdAck, .rdHdr, .rdPay, .rdDcs, .rdPost] → s.timer ≠ 0 →
      agentStep .timeBase s = .next { s with timer := BitVec.ofNat 16 (s.timer.toNat - 1) }) ∧
    (s.phase ∉ [.rdAck, .rdHdr, .rdPay, .rdDcs, .rdPost] ∨ s.timer = 0 → agentStep .timeBase s = .next s)

/-- R207, its first sentence and its zero case: with RXQ empty a phase whose TIMER is T waits through fewer than T ticks
and expires after T of them. -/
def Obligations.PhaseExpiresAfterExactlyItsTicks : Prop :=
  ∀ (s : State) (k : Nat), s.phase.isRead = true → s.cnt < s.need → s.rxq = [] →
    (k < s.timer.toNat → agentRun (List.replicate k .timeBase ++ [.sequencer]) s =
      .next { s with timer := BitVec.ofNat 16 (s.timer.toNat - k) }) ∧
    (s.timer.toNat ≤ k → agentRun (List.replicate k .timeBase ++ [.sequencer]) s =
      .next (aborted 0x00 0x01 (byteOf s.phase.code.toNat) s.cnt { s with timer := 0 }))

/-! ### The end of a decode, the echo check -/

/-- R185 for FRM.DEC and R211 for XACT. A byte of the closing ACK is written when the transport accepts one. Before the sixth
only TXQ and TXI move; the step that writes it shows the response and ends; XACT then strips the first byte into RSP_OP,
flagging RSP_CODE if it is not REQ_OP + 1 modulo 256 or if there is none. -/
def Obligations.ClosingAckAndEchoCheck : Prop :=
  ∀ s : State, s.phase = .txAck → s.txn = 6 →
    (s.txReady = false → seqStep s = .next s) ∧
    (s.txReady = true → ∀ k, k < 5 → s.txi.toNat = k → ∃ b, [0x00, 0x00, 0xFF, 0x00, 0xFF, 0x00][k]? = some b ∧
      seqStep s = .next { s with txq := s.txq ++ [b], txi := s.txi + 1 }) ∧
    (s.txReady = true → s.txi.toNat = 5 →
      let u : State := { s with
        txq := s.txq ++ [0x00], txi := 6, rlen := s.rxLen - 1, result := .ok, phase := .idle }
      (s.opsel ≠ .xact → seqStep s = .next u) ∧
      (s.opsel = .xact → s.rxLen = 1 → seqStep s = .next { u with err0 := s.err0 ||| 0x40 }) ∧
      (s.opsel = .xact → s.rxLen ≠ 1 → ∀ op rest, s.rbuf = op :: rest →
        seqStep s = .next { u with
          rspOp := op, rbuf := rest, rlen := s.rxLen - 2
          err0 := if op.toNat = (s.reqOp.toNat + 1) % 256 then s.err0 else s.err0 ||| 0x40 }))

/-! ### XACT and the carried commands -/

/-- R213, and R200: the start step, and its step in TX_CMD, "exactly as R152", which with the last byte of the frame enters
RD_ACK. Rests on log 17 for SUM after each single step (R34). -/
def Obligations.XactStartsOrIsRefused : Prop :=
  HostOperation 0x0030 .xact (fun s =>
    match s.dbuf with
    | []            => { s with err1 := s.err1 ||| 0x20 }
    | op :: payload => transacting op payload s) ∧
  TransmitStep .xact .frame (fun s => encodeFrame s.dbuf)

/-- Rests on log 1 (a carried command is the host's LOAD and XACT), which it justifies. In every state, for every payload,
each of the eight is the first access of `LOAD (opcode ++ payload); XACT` and leaves the others to do, idle or BUSY; so is a
CARRIED word of any opcode; and a step with such a word on the port is the step with BUF.CLR there and the rest behind it. -/
def Obligations.CarriedCommandEqualsLoadAndXact : Prop :=
  (∀ c ∈ carriedTable, ∀ (p : List Byte) (s : State),
    (s.phase = .idle → exec (c.1 p) s =
      .next { s with dbuf := [], hostProgram := loadRest (c.2 :: p) ++ s.hostProgram }) ∧
    (s.phase ≠ .idle → exec (c.1 p) s =
      .next { s with err1 := s.err1 ||| 0x04, hostProgram := loadRest (c.2 :: p) ++ s.hostProgram })) ∧
  (∀ (op : Byte) (p : List Byte) (s : State), step (withHostWord s (.carried op p)) =
    step (withHostWord { s with hostProgram := loadRest (op :: p) ++ s.hostProgram } (.wr 0x0001)))

/-- R230, "Any other value of `data[0]` is framed and transacted by the block in exactly the same way"; rests on log 1. For
every opcode and at most 253 payload bytes, the host's own turns from the CARRIED word on, with no agent between them, start
XACT on those bytes and change nothing else (the strobe of log 12 falls with the first). -/
def Obligations.CarriedCommandsStartTheirTransaction : Prop :=
  ∀ (op : Byte) (p : List Byte) (s : State), s.rst = false → s.phase = .idle → p.length ≤ 253 →
    run (p.length + 3) { s with
      hostProgram := .word (.carried op p) :: s.hostProgram
      schedule := List.replicate (p.length + 3) .host ++ s.schedule } =
    .next (transacting op p { s with tpReset := false })

/-- R156: with `RXQ = ACK ++ Reframe(data)`, and whatever follows it, FRM.DEC ends with RESULT = OK and
`RBUF[0..RLEN) = data`, for every data of length 0 to 254; what follows stays in RXQ, the ACK is written, and no flag is
set. `Reframe(data)` is `Encode(data)` but for TFI and DCS. -/
def Obligations.RoundTripRecoversTheData : Prop :=
  (∀ (s : State) (data extra : List Byte), s.phase = .idle → data.length ≤ 254 →
    s.transport.txqDepth = .unbounded → s.rxq = ackBytes ++ reframe data ++ extra →
    ∃ u t, exec .frmDec s = .next u ∧
      agentRun (List.replicate (data.length + 20) .sequencer) u = .next t ∧
      t.phase = .idle ∧ t.result = .ok ∧ t.rlen.toNat = data.length ∧ t.rbuf = data ∧ t.rxq = extra ∧
      t.txq = s.txq ++ ackBytes ∧ t.err0 = s.err0 ∧ t.err1 = s.err1 ∧
      t.dbuf = s.dbuf ∧ t.crcAcc = s.crcAcc ∧ t.timeout = s.timeout ∧ t.reqOp = s.reqOp ∧ t.rspOp = s.rspOp) ∧
  (∀ data : List Byte, data.length ≤ 254 → ∃ lcs dcs : Byte,
    encodeFrame data = [0x00, 0x00, 0xFF, byteOf (data.length + 1), lcs, 0xD4] ++ data ++ [dcs, 0x00] ∧
    reframe data = [0x00, 0x00, 0xFF, byteOf (data.length + 1), lcs, 0xD5] ++ data ++ [dcs - 1, 0x00])

/-- R188: whatever bytes RXQ holds, if nothing more arrives, the steps of FRM.DEC end as the function `Decode` says: its
outcome, the flag of its error, the tolerated ACK mismatch, the bytes left, and the ACK exactly on success. After the
sequencer has moved all it can, TIMEOUT ticks and one more turn let a short read expire. -/
def Obligations.StepsRefineTheDecodeFunction : Prop :=
  ∀ (s : State) (n : Nat), s.phase = .idle → s.transport.txqDepth = .unbounded → s.rxq.length + 6 ≤ n →
    let d := decodeFunction s.rxq
    ∃ u t, exec .frmDec s = .next u ∧
      agentRun (List.replicate n .sequencer ++ List.replicate s.timeout.toNat .timeBase ++ [.sequencer]) u = .next t ∧
      t.phase = .idle ∧ t.rxq = d.left ∧
      (∀ p, d.outcome = .response p →
        t.result = .ok ∧ t.rbuf = p ∧ t.rlen.toNat = p.length ∧ t.txq = s.txq ++ ackBytes ∧
        t.err0 = (if d.ackMismatch then s.err0 ||| 0x01 else s.err0) ∧ t.err1 = s.err1 ∧ t.abortPhase = 0) ∧
      (∀ k, d.outcome = .noResponse k →
        t.result = .noResp ∧ t.rbuf = [] ∧ t.rlen = 0 ∧ t.txq = s.txq ∧
        t.err0 = (if d.ackMismatch then s.err0 ||| 0x01 else s.err0) ||| k.mask0 ∧
        t.err1 = s.err1 ||| k.mask1 ∧ t.abortPhase ≠ 0)

/-- R200 with R211: one transaction from end to end. With the device's ACK and the response frame of `payload` in RXQ,
XACT sends the command frame and then the ACK, and shows the payload without its echoed opcode, flagging an opcode that is
not REQ_OP + 1. -/
def Obligations.TransactionEndToEnd : Prop :=
  ∀ (s : State) (op : Byte) (cmd payload extra : List Byte), s.phase = .idle → s.dbuf = op :: cmd →
    cmd.length ≤ 253 → payload.length ≤ 254 → s.transport.txqDepth = .unbounded →
    s.rxq = ackBytes ++ reframe payload ++ extra →
    ∃ u t, exec .xact s = .next u ∧
      agentRun (List.replicate (cmd.length + 9 + payload.length + 20) .sequencer) u = .next t ∧
      t.phase = .idle ∧ t.result = .ok ∧ t.rxq = extra ∧ t.reqOp = op ∧
      t.txq = s.txq ++ encodeFrame (op :: cmd) ++ ackBytes ∧ t.err1 = s.err1 ∧
      t.dbuf = s.dbuf ∧ t.crcAcc = s.crcAcc ∧ t.timeout = s.timeout ∧
      (payload = [] → t.rlen = 0 ∧ t.rspOp = s.rspOp ∧ t.err0 = s.err0 ||| 0x40) ∧
      (∀ e rest, payload = e :: rest →
        t.rspOp = e ∧ t.rbuf = rest ∧ t.rlen.toNat = rest.length ∧
        t.err0 = if e = op + 1 then s.err0 else s.err0 ||| 0x40)

/-! ### The transport -/

/-- R217. Rests on log 12: the pulse is the strobe up in the state after the step. -/
def Obligations.TpResetEmptiesBothQueues : Prop :=
  HostOperation 0x0040 .tpReset (fun s => { s with tpReset := true, rxq := [], txq := [] })

/-- R218. TP.FLUSH is BUSY exactly while TXQ holds bytes. -/
def Obligations.TpFlushWaitsForTxq : Prop :=
  HostOperation 0x0041 .tpFlush (fun s =>
    if s.txq = [] then { s with opsel := .transmit } else { s with opsel := .transmit, phase := .drain }) ∧
  (∀ s : State, s.phase = .drain →
    (s.txq = [] → seqStep s = .next { s with phase := .idle }) ∧ (s.txq ≠ [] → seqStep s = .next s))

/-- R46, R47 and U6. The peer's byte joins the tail of RXQ; with RXQ full it is dropped or stays with the peer, by the
transport's parameter; the peer takes the head of TXQ. Nothing else changes. -/
def Obligations.PeerMovesBytesInOrder : Prop :=
  ∀ (s : State) (b : Byte) (rest : List Byte),
    (s.peerOut = b :: rest → s.transport.rxqDepth = .unbounded →
      agentStep .peerSend s = .next { s with rxq := s.rxq ++ [b], peerOut := rest }) ∧
    (∀ k, s.peerOut = b :: rest → s.transport.rxqDepth = .bounded k →
      (s.rxq.length < k + 1 → agentStep .peerSend s = .next { s with rxq := s.rxq ++ [b], peerOut := rest }) ∧
      (k + 1 ≤ s.rxq.length → s.transport.rxFull = .dropNew → agentStep .peerSend s = .next { s with peerOut := rest }) ∧
      (k + 1 ≤ s.rxq.length → s.transport.rxFull = .stallPeer → agentStep .peerSend s = .next s)) ∧
    (s.txq = b :: rest → agentStep .peerTake s = .next { s with txq := rest, peerIn := s.peerIn ++ [b] })

/-- R331 and U9. While the transport accepts nothing, a write phase never ends: whatever the agents do, short of `rst`,
SRST and the peer taking a byte, the phase and TXQ stay. The bound keeps the run within its schedule (log 4). -/
def Obligations.StalledWriteNeverEnds : Prop :=
  ∀ (n : Nat) (s : State), (s.phase = .txCmd ∨ s.phase = .txAck) → s.txReady = false →
    s.rst = false → n ≤ s.schedule.length → (∀ a ∈ s.schedule, a ≠ .peerTake ∧ a ≠ .rstAssert) →
    (∀ a ∈ s.hostProgram, a ≠ .word (.wr 0x007F)) →
    ∃ t, run n s = .next t ∧ t.phase = s.phase ∧ t.txq = s.txq ∧ t.dbuf = s.dbuf

/-! ### Whole-machine rules -/

/-- The invariant holds after reset, whatever the transport and the stale bytes in its queues (U7). -/
def Obligations.ResetMeetsTheInvariant : Prop :=
  Invariant State.reset ∧ ∀ (tr : Transport) (rx tx : List Byte), Invariant (State.powerUp tr rx tx)

/-- Every step of every agent keeps the invariant. -/
def Obligations.EveryStepKeepsTheInvariant : Prop :=
  ∀ s t : State, Invariant s → step s = .next t → Invariant t

/-- "After reset every operation is defined" (R324): from the invariant no step faults or is refused. -/
def Obligations.NoStepStops : Prop :=
  ∀ s : State, Invariant s → ∃ t, step s = .next t

/-- R24, "by nothing else": a step that changes CRC_ACC is under `rst` or is one of the operations the rule lists. -/
def Obligations.CrcAccHasItsWritersOnly : Prop :=
  ∀ s t : State, step s = .next t → t.crcAcc ≠ s.crcAcc →
    byReset s ∨ ∃ i, hostIssues s i ∧
      (i = .crcInit ∨ i = .crcBlk ∨ i = .srst ∨ (∃ b, i = .crcUpd b) ∨ ∃ b, i = .bufPushc b)

/-- R35, "no operation changes it": a step that changes TIMEOUT is under `rst`, SRST, or the host's write of one of its
bytes. -/
def Obligations.TimeoutHasItsWritersOnly : Prop :=
  ∀ s t : State, step s = .next t → t.timeout ≠ s.timeout →
    byReset s ∨ ∃ i, hostIssues s i ∧ (i = .srst ∨ (∃ b, i = .tmoLo b) ∨ ∃ b, i = .tmoHi b)

/-- R38, "The block sets a flag and never clears one": a step that clears a flag is under `rst`, SRST, or the host's clear of
it. -/
def Obligations.OnlyTheHostClearsFlags : Prop :=
  ∀ (s t : State) (i : Nat), step s = .next t →
    (s.err0.getLsbD i = true → t.err0.getLsbD i = false →
      byReset s ∨ hostIssues s .srst ∨ ∃ m : Byte, m.getLsbD i = true ∧ hostIssues s (.err0Clr m)) ∧
    (s.err1.getLsbD i = true → t.err1.getLsbD i = false →
      byReset s ∨ hostIssues s .srst ∨ ∃ m : Byte, m.getLsbD i = true ∧ hostIssues s (.err1Clr m))

/-- R76 and R36: while an operation runs on, its inputs stand as they did in the step that accepted it. -/
def Obligations.RunningOperationKeepsItsInputs : Prop :=
  ∀ s t : State, s.phase ≠ .idle → step s = .next t → t.phase ≠ .idle →
    t.dbuf = s.dbuf ∧ t.reqOp = s.reqOp ∧ t.tlatch = s.tlatch ∧ t.opsel = s.opsel ∧ t.timeout = s.timeout

/-- R73, R46, R47 and R21. Short of TP.RESET, which discards: TXQ loses its head only to the peer, in the peer's step, and
otherwise only gains a tail; RXQ loses its head only to the sequencer, in a read phase, and gains a tail only by the peer's
next byte, in the peer's step. No step changes the transport's parameters (log 7). -/
def Obligations.StreamsAreFirstInFirstOut : Prop :=
  ∀ s t : State, step s = .next t → t.transport = s.transport ∧ (hostIssues s .tpReset ∨
    ((t.peerIn = s.peerIn ∧ ∃ sent, t.txq = s.txq ++ sent) ∨
      (nextAgent s = .peerTake ∧ ∃ b, s.txq = b :: t.txq ∧ t.peerIn = s.peerIn ++ [b])) ∧
    (t.rxq = s.rxq ∨
      (nextAgent s = .sequencer ∧ s.phase.isRead = true ∧ ∃ b, s.rxq = b :: t.rxq) ∨
      (nextAgent s = .peerSend ∧ ∃ b, s.peerOut = b :: t.peerOut ∧ t.rxq = s.rxq ++ [b])))

/-- R20, R152, R185. Bytes enter TXQ by the sequencer alone, and only in TX_CMD and TX_ACK (R47). -/
def Obligations.OnlyWritePhasesTransmit : Prop :=
  ∀ s t : State, step s = .next t → s.txq.length < t.txq.length →
    nextAgent s = .sequencer ∧ (s.phase = .txCmd ∨ s.phase = .txAck) ∧ ∃ b, s.txData = some b ∧ t.txq = s.txq ++ [b]

/-! ### Encoding -/

/-- Decoding the word of a well-formed instruction gives it back, with every operand at every value. -/
def Obligations.DecodeOfEncode : Prop :=
  ∀ i : Instr, i.wellFormed = true → decode (encode i) = .ok i

/-- Each word has one meaning: a word that decodes to an instruction is that instruction's word. -/
def Obligations.EncodeOfDecode : Prop :=
  ∀ (w : OpWord) (i : Instr), decode w = .ok i → encode i = w

/-- Words written out from 30_encoding.md and the programs of 95_test_vectors.md, one of each kind. -/
def Obligations.WrittenWordsDecode : Prop :=
  decode (.wr 0b0000000000110000) = .ok .xact ∧
  decode (.wr 0b0000000000000011) = .ok .crcBlk ∧
  decode (.wr 0b0000000001111111) = .ok .srst ∧
  decode (.wr 0b0000011101001010) = .ok (.bufPush 0x4A) ∧
  decode (.wr 0b0000100000000101) = .ok (.bufPushc 0x05) ∧
  decode (.wr 0b0000010100010011) = .ok (.tmoHi 0x13) ∧
  decode (.wr 0b0000001000010000) = .ok (.err0Clr 0x10) ∧
  decode (.wr 0b0000110100000000) = .ok (.rptrSet 0x00) ∧
  decode (.wr 0b0000000000000101) = .error (.illegalCmd 0x05) ∧
  decode (.wr 0b0000011001010101) = .error (.readOnly 0x06) ∧
  decode (.wr 0b1000000000000001) = .error (.reserved 0x80) ∧
  decode (.rd 0b00001110) = .ok .rbufPop ∧
  decode (.rd 0b00010000) = .ok (.rd 0x10) ∧
  decode (.carried 0b01001010 [0x01, 0x00]) = .ok (.inListPassiveTarget [0x01, 0x00])

end
end

