-- ==== Sys2Proof/Laws/State.lean ====
section
/-! SUPPORT. One lemma per field of State for each named update of a state, each true by rfl, so that no later proof
unfolds a record update. -/

namespace Sys2Proof.Machine

/-! ### `flag E` (R292) -/

@[simp] theorem flag_crcAcc (k : ErrKind) (s : State) : (s.flag k).crcAcc = s.crcAcc := rfl
@[simp] theorem flag_dbuf (k : ErrKind) (s : State) : (s.flag k).dbuf = s.dbuf := rfl
@[simp] theorem flag_rbuf (k : ErrKind) (s : State) : (s.flag k).rbuf = s.rbuf := rfl
@[simp] theorem flag_rlen (k : ErrKind) (s : State) : (s.flag k).rlen = s.rlen := rfl
@[simp] theorem flag_rptr (k : ErrKind) (s : State) : (s.flag k).rptr = s.rptr := rfl
@[simp] theorem flag_reqOp (k : ErrKind) (s : State) : (s.flag k).reqOp = s.reqOp := rfl
@[simp] theorem flag_rspOp (k : ErrKind) (s : State) : (s.flag k).rspOp = s.rspOp := rfl
@[simp] theorem flag_phase (k : ErrKind) (s : State) : (s.flag k).phase = s.phase := rfl
@[simp] theorem flag_opsel (k : ErrKind) (s : State) : (s.flag k).opsel = s.opsel := rfl
@[simp] theorem flag_txsel (k : ErrKind) (s : State) : (s.flag k).txsel = s.txsel := rfl
@[simp] theorem flag_txi (k : ErrKind) (s : State) : (s.flag k).txi = s.txi := rfl
@[simp] theorem flag_txn (k : ErrKind) (s : State) : (s.flag k).txn = s.txn := rfl
@[simp] theorem flag_cnt (k : ErrKind) (s : State) : (s.flag k).cnt = s.cnt := rfl
@[simp] theorem flag_need (k : ErrKind) (s : State) : (s.flag k).need = s.need := rfl
@[simp] theorem flag_sum (k : ErrKind) (s : State) : (s.flag k).sum = s.sum := rfl
@[simp] theorem flag_timeout (k : ErrKind) (s : State) : (s.flag k).timeout = s.timeout := rfl
@[simp] theorem flag_tlatch (k : ErrKind) (s : State) : (s.flag k).tlatch = s.tlatch := rfl
@[simp] theorem flag_timer (k : ErrKind) (s : State) : (s.flag k).timer = s.timer := rfl
@[simp] theorem flag_result (k : ErrKind) (s : State) : (s.flag k).result = s.result := rfl
@[simp] theorem flag_err0 (k : ErrKind) (s : State) : (s.flag k).err0 = s.err0 ||| k.mask0 := rfl
@[simp] theorem flag_err1 (k : ErrKind) (s : State) : (s.flag k).err1 = s.err1 ||| k.mask1 := rfl
@[simp] theorem flag_rxLen (k : ErrKind) (s : State) : (s.flag k).rxLen = s.rxLen := rfl
@[simp] theorem flag_rxLcs (k : ErrKind) (s : State) : (s.flag k).rxLcs = s.rxLcs := rfl
@[simp] theorem flag_rxTfi (k : ErrKind) (s : State) : (s.flag k).rxTfi = s.rxTfi := rfl
@[simp] theorem flag_rxDcs (k : ErrKind) (s : State) : (s.flag k).rxDcs = s.rxDcs := rfl
@[simp] theorem flag_abortPhase (k : ErrKind) (s : State) : (s.flag k).abortPhase = s.abortPhase := rfl
@[simp] theorem flag_abortCnt (k : ErrKind) (s : State) : (s.flag k).abortCnt = s.abortCnt := rfl
@[simp] theorem flag_hbuf (k : ErrKind) (s : State) : (s.flag k).hbuf = s.hbuf := rfl
@[simp] theorem flag_rst (k : ErrKind) (s : State) : (s.flag k).rst = s.rst := rfl
@[simp] theorem flag_tpReset (k : ErrKind) (s : State) : (s.flag k).tpReset = s.tpReset := rfl
@[simp] theorem flag_regRdata (k : ErrKind) (s : State) : (s.flag k).regRdata = s.regRdata := rfl
@[simp] theorem flag_rxq (k : ErrKind) (s : State) : (s.flag k).rxq = s.rxq := rfl
@[simp] theorem flag_txq (k : ErrKind) (s : State) : (s.flag k).txq = s.txq := rfl
@[simp] theorem flag_transport (k : ErrKind) (s : State) : (s.flag k).transport = s.transport := rfl
@[simp] theorem flag_hostProgram (k : ErrKind) (s : State) : (s.flag k).hostProgram = s.hostProgram := rfl
@[simp] theorem flag_peerOut (k : ErrKind) (s : State) : (s.flag k).peerOut = s.peerOut := rfl
@[simp] theorem flag_peerIn (k : ErrKind) (s : State) : (s.flag k).peerIn = s.peerIn := rfl
@[simp] theorem flag_schedule (k : ErrKind) (s : State) : (s.flag k).schedule = s.schedule := rfl
@[simp] theorem flag_freeIx (k : ErrKind) (s : State) : (s.flag k).freeIx = s.freeIx := rfl

/-! ### the block's reset (R50, R51) -/

@[simp] theorem blockReset_crcAcc (s : State) : (s.blockReset).crcAcc = 0x6363 := rfl
@[simp] theorem blockReset_dbuf (s : State) : (s.blockReset).dbuf = [] := rfl
@[simp] theorem blockReset_rbuf (s : State) : (s.blockReset).rbuf = [] := rfl
@[simp] theorem blockReset_rlen (s : State) : (s.blockReset).rlen = 0 := rfl
@[simp] theorem blockReset_rptr (s : State) : (s.blockReset).rptr = 0 := rfl
@[simp] theorem blockReset_reqOp (s : State) : (s.blockReset).reqOp = 0x00 := rfl
@[simp] theorem blockReset_rspOp (s : State) : (s.blockReset).rspOp = 0x00 := rfl
@[simp] theorem blockReset_phase (s : State) : (s.blockReset).phase = .idle := rfl
@[simp] theorem blockReset_opsel (s : State) : (s.blockReset).opsel = .transmit := rfl
@[simp] theorem blockReset_txsel (s : State) : (s.blockReset).txsel = .frame := rfl
@[simp] theorem blockReset_txi (s : State) : (s.blockReset).txi = 0 := rfl
@[simp] theorem blockReset_txn (s : State) : (s.blockReset).txn = 0 := rfl
@[simp] theorem blockReset_cnt (s : State) : (s.blockReset).cnt = 0 := rfl
@[simp] theorem blockReset_need (s : State) : (s.blockReset).need = 0 := rfl
@[simp] theorem blockReset_sum (s : State) : (s.blockReset).sum = 0 := rfl
@[simp] theorem blockReset_timeout (s : State) : (s.blockReset).timeout = 500 := rfl
@[simp] theorem blockReset_tlatch (s : State) : (s.blockReset).tlatch = 0 := rfl
@[simp] theorem blockReset_timer (s : State) : (s.blockReset).timer = 0 := rfl
@[simp] theorem blockReset_result (s : State) : (s.blockReset).result = .none := rfl
@[simp] theorem blockReset_err0 (s : State) : (s.blockReset).err0 = 0x00 := rfl
@[simp] theorem blockReset_err1 (s : State) : (s.blockReset).err1 = 0x00 := rfl
@[simp] theorem blockReset_rxLen (s : State) : (s.blockReset).rxLen = 0x00 := rfl
@[simp] theorem blockReset_rxLcs (s : State) : (s.blockReset).rxLcs = 0x00 := rfl
@[simp] theorem blockReset_rxTfi (s : State) : (s.blockReset).rxTfi = 0x00 := rfl
@[simp] theorem blockReset_rxDcs (s : State) : (s.blockReset).rxDcs = 0x00 := rfl
@[simp] theorem blockReset_abortPhase (s : State) : (s.blockReset).abortPhase = 0x00 := rfl
@[simp] theorem blockReset_abortCnt (s : State) : (s.blockReset).abortCnt = 0x00 := rfl
@[simp] theorem blockReset_hbuf (s : State) : (s.blockReset).hbuf = HBuf.reset := rfl
@[simp] theorem blockReset_rst (s : State) : (s.blockReset).rst = s.rst := rfl
@[simp] theorem blockReset_tpReset (s : State) : (s.blockReset).tpReset = false := rfl
@[simp] theorem blockReset_regRdata (s : State) : (s.blockReset).regRdata = s.regRdata := rfl
@[simp] theorem blockReset_rxq (s : State) : (s.blockReset).rxq = s.rxq := rfl
@[simp] theorem blockReset_txq (s : State) : (s.blockReset).txq = s.txq := rfl
@[simp] theorem blockReset_transport (s : State) : (s.blockReset).transport = s.transport := rfl
@[simp] theorem blockReset_hostProgram (s : State) : (s.blockReset).hostProgram = s.hostProgram := rfl
@[simp] theorem blockReset_peerOut (s : State) : (s.blockReset).peerOut = s.peerOut := rfl
@[simp] theorem blockReset_peerIn (s : State) : (s.blockReset).peerIn = s.peerIn := rfl
@[simp] theorem blockReset_schedule (s : State) : (s.blockReset).schedule = s.schedule := rfl
@[simp] theorem blockReset_freeIx (s : State) : (s.blockReset).freeIx = s.freeIx := rfl

/-! ### BUF.CLR (R222) -/

@[simp] theorem clearDbuf_crcAcc (s : State) : (clearDbuf s).crcAcc = s.crcAcc := rfl
@[simp] theorem clearDbuf_dbuf (s : State) : (clearDbuf s).dbuf = [] := rfl
@[simp] theorem clearDbuf_rbuf (s : State) : (clearDbuf s).rbuf = s.rbuf := rfl
@[simp] theorem clearDbuf_rlen (s : State) : (clearDbuf s).rlen = s.rlen := rfl
@[simp] theorem clearDbuf_rptr (s : State) : (clearDbuf s).rptr = s.rptr := rfl
@[simp] theorem clearDbuf_reqOp (s : State) : (clearDbuf s).reqOp = s.reqOp := rfl
@[simp] theorem clearDbuf_rspOp (s : State) : (clearDbuf s).rspOp = s.rspOp := rfl
@[simp] theorem clearDbuf_phase (s : State) : (clearDbuf s).phase = s.phase := rfl
@[simp] theorem clearDbuf_opsel (s : State) : (clearDbuf s).opsel = s.opsel := rfl
@[simp] theorem clearDbuf_txsel (s : State) : (clearDbuf s).txsel = s.txsel := rfl
@[simp] theorem clearDbuf_txi (s : State) : (clearDbuf s).txi = s.txi := rfl
@[simp] theorem clearDbuf_txn (s : State) : (clearDbuf s).txn = s.txn := rfl
@[simp] theorem clearDbuf_cnt (s : State) : (clearDbuf s).cnt = s.cnt := rfl
@[simp] theorem clearDbuf_need (s : State) : (clearDbuf s).need = s.need := rfl
@[simp] theorem clearDbuf_sum (s : State) : (clearDbuf s).sum = s.sum := rfl
@[simp] theorem clearDbuf_timeout (s : State) : (clearDbuf s).timeout = s.timeout := rfl
@[simp] theorem clearDbuf_tlatch (s : State) : (clearDbuf s).tlatch = s.tlatch := rfl
@[simp] theorem clearDbuf_timer (s : State) : (clearDbuf s).timer = s.timer := rfl
@[simp] theorem clearDbuf_result (s : State) : (clearDbuf s).result = s.result := rfl
@[simp] theorem clearDbuf_err0 (s : State) : (clearDbuf s).err0 = s.err0 := rfl
@[simp] theorem clearDbuf_err1 (s : State) : (clearDbuf s).err1 = s.err1 := rfl
@[simp] theorem clearDbuf_rxLen (s : State) : (clearDbuf s).rxLen = s.rxLen := rfl
@[simp] theorem clearDbuf_rxLcs (s : State) : (clearDbuf s).rxLcs = s.rxLcs := rfl
@[simp] theorem clearDbuf_rxTfi (s : State) : (clearDbuf s).rxTfi = s.rxTfi := rfl
@[simp] theorem clearDbuf_rxDcs (s : State) : (clearDbuf s).rxDcs = s.rxDcs := rfl
@[simp] theorem clearDbuf_abortPhase (s : State) : (clearDbuf s).abortPhase = s.abortPhase := rfl
@[simp] theorem clearDbuf_abortCnt (s : State) : (clearDbuf s).abortCnt = s.abortCnt := rfl
@[simp] theorem clearDbuf_hbuf (s : State) : (clearDbuf s).hbuf = s.hbuf := rfl
@[simp] theorem clearDbuf_rst (s : State) : (clearDbuf s).rst = s.rst := rfl
@[simp] theorem clearDbuf_tpReset (s : State) : (clearDbuf s).tpReset = s.tpReset := rfl
@[simp] theorem clearDbuf_regRdata (s : State) : (clearDbuf s).regRdata = s.regRdata := rfl
@[simp] theorem clearDbuf_rxq (s : State) : (clearDbuf s).rxq = s.rxq := rfl
@[simp] theorem clearDbuf_txq (s : State) : (clearDbuf s).txq = s.txq := rfl
@[simp] theorem clearDbuf_transport (s : State) : (clearDbuf s).transport = s.transport := rfl
@[simp] theorem clearDbuf_hostProgram (s : State) : (clearDbuf s).hostProgram = s.hostProgram := rfl
@[simp] theorem clearDbuf_peerOut (s : State) : (clearDbuf s).peerOut = s.peerOut := rfl
@[simp] theorem clearDbuf_peerIn (s : State) : (clearDbuf s).peerIn = s.peerIn := rfl
@[simp] theorem clearDbuf_schedule (s : State) : (clearDbuf s).schedule = s.schedule := rfl
@[simp] theorem clearDbuf_freeIx (s : State) : (clearDbuf s).freeIx = s.freeIx := rfl

/-! ### the clears of a starting decode (R171, R200) -/

@[simp] theorem clearForDecode_crcAcc (s : State) : (clearForDecode s).crcAcc = s.crcAcc := rfl
@[simp] theorem clearForDecode_dbuf (s : State) : (clearForDecode s).dbuf = s.dbuf := rfl
@[simp] theorem clearForDecode_rbuf (s : State) : (clearForDecode s).rbuf = [] := rfl
@[simp] theorem clearForDecode_rlen (s : State) : (clearForDecode s).rlen = 0 := rfl
@[simp] theorem clearForDecode_rptr (s : State) : (clearForDecode s).rptr = 0 := rfl
@[simp] theorem clearForDecode_reqOp (s : State) : (clearForDecode s).reqOp = s.reqOp := rfl
@[simp] theorem clearForDecode_rspOp (s : State) : (clearForDecode s).rspOp = s.rspOp := rfl
@[simp] theorem clearForDecode_phase (s : State) : (clearForDecode s).phase = s.phase := rfl
@[simp] theorem clearForDecode_opsel (s : State) : (clearForDecode s).opsel = s.opsel := rfl
@[simp] theorem clearForDecode_txsel (s : State) : (clearForDecode s).txsel = s.txsel := rfl
@[simp] theorem clearForDecode_txi (s : State) : (clearForDecode s).txi = s.txi := rfl
@[simp] theorem clearForDecode_txn (s : State) : (clearForDecode s).txn = s.txn := rfl
@[simp] theorem clearForDecode_cnt (s : State) : (clearForDecode s).cnt = s.cnt := rfl
@[simp] theorem clearForDecode_need (s : State) : (clearForDecode s).need = s.need := rfl
@[simp] theorem clearForDecode_sum (s : State) : (clearForDecode s).sum = s.sum := rfl
@[simp] theorem clearForDecode_timeout (s : State) : (clearForDecode s).timeout = s.timeout := rfl
@[simp] theorem clearForDecode_tlatch (s : State) : (clearForDecode s).tlatch = s.timeout := rfl
@[simp] theorem clearForDecode_timer (s : State) : (clearForDecode s).timer = s.timer := rfl
@[simp] theorem clearForDecode_result (s : State) : (clearForDecode s).result = .none := rfl
@[simp] theorem clearForDecode_err0 (s : State) : (clearForDecode s).err0 = s.err0 := rfl
@[simp] theorem clearForDecode_err1 (s : State) : (clearForDecode s).err1 = s.err1 := rfl
@[simp] theorem clearForDecode_rxLen (s : State) : (clearForDecode s).rxLen = 0 := rfl
@[simp] theorem clearForDecode_rxLcs (s : State) : (clearForDecode s).rxLcs = 0 := rfl
@[simp] theorem clearForDecode_rxTfi (s : State) : (clearForDecode s).rxTfi = 0 := rfl
@[simp] theorem clearForDecode_rxDcs (s : State) : (clearForDecode s).rxDcs = 0 := rfl
@[simp] theorem clearForDecode_abortPhase (s : State) : (clearForDecode s).abortPhase = 0 := rfl
@[simp] theorem clearForDecode_abortCnt (s : State) : (clearForDecode s).abortCnt = 0 := rfl
@[simp] theorem clearForDecode_hbuf (s : State) : (clearForDecode s).hbuf = s.hbuf := rfl
@[simp] theorem clearForDecode_rst (s : State) : (clearForDecode s).rst = s.rst := rfl
@[simp] theorem clearForDecode_tpReset (s : State) : (clearForDecode s).tpReset = s.tpReset := rfl
@[simp] theorem clearForDecode_regRdata (s : State) : (clearForDecode s).regRdata = s.regRdata := rfl
@[simp] theorem clearForDecode_rxq (s : State) : (clearForDecode s).rxq = s.rxq := rfl
@[simp] theorem clearForDecode_txq (s : State) : (clearForDecode s).txq = s.txq := rfl
@[simp] theorem clearForDecode_transport (s : State) : (clearForDecode s).transport = s.transport := rfl
@[simp] theorem clearForDecode_hostProgram (s : State) : (clearForDecode s).hostProgram = s.hostProgram := rfl
@[simp] theorem clearForDecode_peerOut (s : State) : (clearForDecode s).peerOut = s.peerOut := rfl
@[simp] theorem clearForDecode_peerIn (s : State) : (clearForDecode s).peerIn = s.peerIn := rfl
@[simp] theorem clearForDecode_schedule (s : State) : (clearForDecode s).schedule = s.schedule := rfl
@[simp] theorem clearForDecode_freeIx (s : State) : (clearForDecode s).freeIx = s.freeIx := rfl

/-! ### the start of a write phase (R152) -/

@[simp] theorem startTx_crcAcc (op : OpSel) (sel : TxSel) (n : Nat) (s : State) : (startTx op sel n s).crcAcc = s.crcAcc := rfl
@[simp] theorem startTx_dbuf (op : OpSel) (sel : TxSel) (n : Nat) (s : State) : (startTx op sel n s).dbuf = s.dbuf := rfl
@[simp] theorem startTx_rbuf (op : OpSel) (sel : TxSel) (n : Nat) (s : State) : (startTx op sel n s).rbuf = s.rbuf := rfl
@[simp] theorem startTx_rlen (op : OpSel) (sel : TxSel) (n : Nat) (s : State) : (startTx op sel n s).rlen = s.rlen := rfl
@[simp] theorem startTx_rptr (op : OpSel) (sel : TxSel) (n : Nat) (s : State) : (startTx op sel n s).rptr = s.rptr := rfl
@[simp] theorem startTx_reqOp (op : OpSel) (sel : TxSel) (n : Nat) (s : State) : (startTx op sel n s).reqOp = s.reqOp := rfl
@[simp] theorem startTx_rspOp (op : OpSel) (sel : TxSel) (n : Nat) (s : State) : (startTx op sel n s).rspOp = s.rspOp := rfl
@[simp] theorem startTx_phase (op : OpSel) (sel : TxSel) (n : Nat) (s : State) : (startTx op sel n s).phase = .txCmd := rfl
@[simp] theorem startTx_opsel (op : OpSel) (sel : TxSel) (n : Nat) (s : State) : (startTx op sel n s).opsel = op := rfl
@[simp] theorem startTx_txsel (op : OpSel) (sel : TxSel) (n : Nat) (s : State) : (startTx op sel n s).txsel = sel := rfl
@[simp] theorem startTx_txi (op : OpSel) (sel : TxSel) (n : Nat) (s : State) : (startTx op sel n s).txi = 0 := rfl
@[simp] theorem startTx_txn (op : OpSel) (sel : TxSel) (n : Nat) (s : State) : (startTx op sel n s).txn = BitVec.ofNat 9 n := rfl
@[simp] theorem startTx_cnt (op : OpSel) (sel : TxSel) (n : Nat) (s : State) : (startTx op sel n s).cnt = s.cnt := rfl
@[simp] theorem startTx_need (op : OpSel) (sel : TxSel) (n : Nat) (s : State) : (startTx op sel n s).need = s.need := rfl
@[simp] theorem startTx_sum (op : OpSel) (sel : TxSel) (n : Nat) (s : State) : (startTx op sel n s).sum = s.sum := rfl
@[simp] theorem startTx_timeout (op : OpSel) (sel : TxSel) (n : Nat) (s : State) : (startTx op sel n s).timeout = s.timeout := rfl
@[simp] theorem startTx_tlatch (op : OpSel) (sel : TxSel) (n : Nat) (s : State) : (startTx op sel n s).tlatch = s.tlatch := rfl
@[simp] theorem startTx_timer (op : OpSel) (sel : TxSel) (n : Nat) (s : State) : (startTx op sel n s).timer = s.timer := rfl
@[simp] theorem startTx_result (op : OpSel) (sel : TxSel) (n : Nat) (s : State) : (startTx op sel n s).result = s.result := rfl
@[simp] theorem startTx_err0 (op : OpSel) (sel : TxSel) (n : Nat) (s : State) : (startTx op sel n s).err0 = s.err0 := rfl
@[simp] theorem startTx_err1 (op : OpSel) (sel : TxSel) (n : Nat) (s : State) : (startTx op sel n s).err1 = s.err1 := rfl
@[simp] theorem startTx_rxLen (op : OpSel) (sel : TxSel) (n : Nat) (s : State) : (startTx op sel n s).rxLen = s.rxLen := rfl
@[simp] theorem startTx_rxLcs (op : OpSel) (sel : TxSel) (n : Nat) (s : State) : (startTx op sel n s).rxLcs = s.rxLcs := rfl
@[simp] theorem startTx_rxTfi (op : OpSel) (sel : TxSel) (n : Nat) (s : State) : (startTx op sel n s).rxTfi = s.rxTfi := rfl
@[simp] theorem startTx_rxDcs (op : OpSel) (sel : TxSel) (n : Nat) (s : State) : (startTx op sel n s).rxDcs = s.rxDcs := rfl
@[simp] theorem startTx_abortPhase (op : OpSel) (sel : TxSel) (n : Nat) (s : State) : (startTx op sel n s).abortPhase = s.abortPhase := rfl
@[simp] theorem startTx_abortCnt (op : OpSel) (sel : TxSel) (n : Nat) (s : State) : (startTx op sel n s).abortCnt = s.abortCnt := rfl
@[simp] theorem startTx_hbuf (op : OpSel) (sel : TxSel) (n : Nat) (s : State) : (startTx op sel n s).hbuf = s.hbuf := rfl
@[simp] theorem startTx_rst (op : OpSel) (sel : TxSel) (n : Nat) (s : State) : (startTx op sel n s).rst = s.rst := rfl
@[simp] theorem startTx_tpReset (op : OpSel) (sel : TxSel) (n : Nat) (s : State) : (startTx op sel n s).tpReset = s.tpReset := rfl
@[simp] theorem startTx_regRdata (op : OpSel) (sel : TxSel) (n : Nat) (s : State) : (startTx op sel n s).regRdata = s.regRdata := rfl
@[simp] theorem startTx_rxq (op : OpSel) (sel : TxSel) (n : Nat) (s : State) : (startTx op sel n s).rxq = s.rxq := rfl
@[simp] theorem startTx_txq (op : OpSel) (sel : TxSel) (n : Nat) (s : State) : (startTx op sel n s).txq = s.txq := rfl
@[simp] theorem startTx_transport (op : OpSel) (sel : TxSel) (n : Nat) (s : State) : (startTx op sel n s).transport = s.transport := rfl
@[simp] theorem startTx_hostProgram (op : OpSel) (sel : TxSel) (n : Nat) (s : State) : (startTx op sel n s).hostProgram = s.hostProgram := rfl
@[simp] theorem startTx_peerOut (op : OpSel) (sel : TxSel) (n : Nat) (s : State) : (startTx op sel n s).peerOut = s.peerOut := rfl
@[simp] theorem startTx_peerIn (op : OpSel) (sel : TxSel) (n : Nat) (s : State) : (startTx op sel n s).peerIn = s.peerIn := rfl
@[simp] theorem startTx_schedule (op : OpSel) (sel : TxSel) (n : Nat) (s : State) : (startTx op sel n s).schedule = s.schedule := rfl
@[simp] theorem startTx_freeIx (op : OpSel) (sel : TxSel) (n : Nat) (s : State) : (startTx op sel n s).freeIx = s.freeIx := rfl

/-! ### the start of a read phase (R203) -/

@[simp] theorem loadPhase_crcAcc (p : Phase) (n : Byte) (s : State) : (loadPhase p n s).crcAcc = s.crcAcc := rfl
@[simp] theorem loadPhase_dbuf (p : Phase) (n : Byte) (s : State) : (loadPhase p n s).dbuf = s.dbuf := rfl
@[simp] theorem loadPhase_rbuf (p : Phase) (n : Byte) (s : State) : (loadPhase p n s).rbuf = s.rbuf := rfl
@[simp] theorem loadPhase_rlen (p : Phase) (n : Byte) (s : State) : (loadPhase p n s).rlen = s.rlen := rfl
@[simp] theorem loadPhase_rptr (p : Phase) (n : Byte) (s : State) : (loadPhase p n s).rptr = s.rptr := rfl
@[simp] theorem loadPhase_reqOp (p : Phase) (n : Byte) (s : State) : (loadPhase p n s).reqOp = s.reqOp := rfl
@[simp] theorem loadPhase_rspOp (p : Phase) (n : Byte) (s : State) : (loadPhase p n s).rspOp = s.rspOp := rfl
@[simp] theorem loadPhase_phase (p : Phase) (n : Byte) (s : State) : (loadPhase p n s).phase = p := rfl
@[simp] theorem loadPhase_opsel (p : Phase) (n : Byte) (s : State) : (loadPhase p n s).opsel = s.opsel := rfl
@[simp] theorem loadPhase_txsel (p : Phase) (n : Byte) (s : State) : (loadPhase p n s).txsel = s.txsel := rfl
@[simp] theorem loadPhase_txi (p : Phase) (n : Byte) (s : State) : (loadPhase p n s).txi = s.txi := rfl
@[simp] theorem loadPhase_txn (p : Phase) (n : Byte) (s : State) : (loadPhase p n s).txn = s.txn := rfl
@[simp] theorem loadPhase_cnt (p : Phase) (n : Byte) (s : State) : (loadPhase p n s).cnt = 0 := rfl
@[simp] theorem loadPhase_need (p : Phase) (n : Byte) (s : State) : (loadPhase p n s).need = n := rfl
@[simp] theorem loadPhase_sum (p : Phase) (n : Byte) (s : State) : (loadPhase p n s).sum = s.sum := rfl
@[simp] theorem loadPhase_timeout (p : Phase) (n : Byte) (s : State) : (loadPhase p n s).timeout = s.timeout := rfl
@[simp] theorem loadPhase_tlatch (p : Phase) (n : Byte) (s : State) : (loadPhase p n s).tlatch = s.tlatch := rfl
@[simp] theorem loadPhase_timer (p : Phase) (n : Byte) (s : State) : (loadPhase p n s).timer = s.tlatch := rfl
@[simp] theorem loadPhase_result (p : Phase) (n : Byte) (s : State) : (loadPhase p n s).result = s.result := rfl
@[simp] theorem loadPhase_err0 (p : Phase) (n : Byte) (s : State) : (loadPhase p n s).err0 = s.err0 := rfl
@[simp] theorem loadPhase_err1 (p : Phase) (n : Byte) (s : State) : (loadPhase p n s).err1 = s.err1 := rfl
@[simp] theorem loadPhase_rxLen (p : Phase) (n : Byte) (s : State) : (loadPhase p n s).rxLen = s.rxLen := rfl
@[simp] theorem loadPhase_rxLcs (p : Phase) (n : Byte) (s : State) : (loadPhase p n s).rxLcs = s.rxLcs := rfl
@[simp] theorem loadPhase_rxTfi (p : Phase) (n : Byte) (s : State) : (loadPhase p n s).rxTfi = s.rxTfi := rfl
@[simp] theorem loadPhase_rxDcs (p : Phase) (n : Byte) (s : State) : (loadPhase p n s).rxDcs = s.rxDcs := rfl
@[simp] theorem loadPhase_abortPhase (p : Phase) (n : Byte) (s : State) : (loadPhase p n s).abortPhase = s.abortPhase := rfl
@[simp] theorem loadPhase_abortCnt (p : Phase) (n : Byte) (s : State) : (loadPhase p n s).abortCnt = s.abortCnt := rfl
@[simp] theorem loadPhase_hbuf (p : Phase) (n : Byte) (s : State) : (loadPhase p n s).hbuf = s.hbuf := rfl
@[simp] theorem loadPhase_rst (p : Phase) (n : Byte) (s : State) : (loadPhase p n s).rst = s.rst := rfl
@[simp] theorem loadPhase_tpReset (p : Phase) (n : Byte) (s : State) : (loadPhase p n s).tpReset = s.tpReset := rfl
@[simp] theorem loadPhase_regRdata (p : Phase) (n : Byte) (s : State) : (loadPhase p n s).regRdata = s.regRdata := rfl
@[simp] theorem loadPhase_rxq (p : Phase) (n : Byte) (s : State) : (loadPhase p n s).rxq = s.rxq := rfl
@[simp] theorem loadPhase_txq (p : Phase) (n : Byte) (s : State) : (loadPhase p n s).txq = s.txq := rfl
@[simp] theorem loadPhase_transport (p : Phase) (n : Byte) (s : State) : (loadPhase p n s).transport = s.transport := rfl
@[simp] theorem loadPhase_hostProgram (p : Phase) (n : Byte) (s : State) : (loadPhase p n s).hostProgram = s.hostProgram := rfl
@[simp] theorem loadPhase_peerOut (p : Phase) (n : Byte) (s : State) : (loadPhase p n s).peerOut = s.peerOut := rfl
@[simp] theorem loadPhase_peerIn (p : Phase) (n : Byte) (s : State) : (loadPhase p n s).peerIn = s.peerIn := rfl
@[simp] theorem loadPhase_schedule (p : Phase) (n : Byte) (s : State) : (loadPhase p n s).schedule = s.schedule := rfl
@[simp] theorem loadPhase_freeIx (p : Phase) (n : Byte) (s : State) : (loadPhase p n s).freeIx = s.freeIx := rfl

/-! ### the abort (R290) -/

@[simp] theorem raise_crcAcc (k : ErrKind) (s : State) : (raise k s).crcAcc = s.crcAcc := rfl
@[simp] theorem raise_dbuf (k : ErrKind) (s : State) : (raise k s).dbuf = s.dbuf := rfl
@[simp] theorem raise_rbuf (k : ErrKind) (s : State) : (raise k s).rbuf = [] := rfl
@[simp] theorem raise_rlen (k : ErrKind) (s : State) : (raise k s).rlen = 0 := rfl
@[simp] theorem raise_rptr (k : ErrKind) (s : State) : (raise k s).rptr = 0 := rfl
@[simp] theorem raise_reqOp (k : ErrKind) (s : State) : (raise k s).reqOp = s.reqOp := rfl
@[simp] theorem raise_rspOp (k : ErrKind) (s : State) : (raise k s).rspOp = s.rspOp := rfl
@[simp] theorem raise_phase (k : ErrKind) (s : State) : (raise k s).phase = .idle := rfl
@[simp] theorem raise_opsel (k : ErrKind) (s : State) : (raise k s).opsel = s.opsel := rfl
@[simp] theorem raise_txsel (k : ErrKind) (s : State) : (raise k s).txsel = s.txsel := rfl
@[simp] theorem raise_txi (k : ErrKind) (s : State) : (raise k s).txi = s.txi := rfl
@[simp] theorem raise_txn (k : ErrKind) (s : State) : (raise k s).txn = s.txn := rfl
@[simp] theorem raise_cnt (k : ErrKind) (s : State) : (raise k s).cnt = s.cnt := rfl
@[simp] theorem raise_need (k : ErrKind) (s : State) : (raise k s).need = s.need := rfl
@[simp] theorem raise_sum (k : ErrKind) (s : State) : (raise k s).sum = s.sum := rfl
@[simp] theorem raise_timeout (k : ErrKind) (s : State) : (raise k s).timeout = s.timeout := rfl
@[simp] theorem raise_tlatch (k : ErrKind) (s : State) : (raise k s).tlatch = s.tlatch := rfl
@[simp] theorem raise_timer (k : ErrKind) (s : State) : (raise k s).timer = s.timer := rfl
@[simp] theorem raise_result (k : ErrKind) (s : State) : (raise k s).result = .noResp := rfl
@[simp] theorem raise_err0 (k : ErrKind) (s : State) : (raise k s).err0 = s.err0 ||| k.mask0 := rfl
@[simp] theorem raise_err1 (k : ErrKind) (s : State) : (raise k s).err1 = s.err1 ||| k.mask1 := rfl
@[simp] theorem raise_rxLen (k : ErrKind) (s : State) : (raise k s).rxLen = s.rxLen := rfl
@[simp] theorem raise_rxLcs (k : ErrKind) (s : State) : (raise k s).rxLcs = s.rxLcs := rfl
@[simp] theorem raise_rxTfi (k : ErrKind) (s : State) : (raise k s).rxTfi = s.rxTfi := rfl
@[simp] theorem raise_rxDcs (k : ErrKind) (s : State) : (raise k s).rxDcs = s.rxDcs := rfl
@[simp] theorem raise_abortPhase (k : ErrKind) (s : State) : (raise k s).abortPhase = s.phase.code.setWidth 8 := rfl
@[simp] theorem raise_abortCnt (k : ErrKind) (s : State) : (raise k s).abortCnt = s.cnt := rfl
@[simp] theorem raise_hbuf (k : ErrKind) (s : State) : (raise k s).hbuf = s.hbuf := rfl
@[simp] theorem raise_rst (k : ErrKind) (s : State) : (raise k s).rst = s.rst := rfl
@[simp] theorem raise_tpReset (k : ErrKind) (s : State) : (raise k s).tpReset = s.tpReset := rfl
@[simp] theorem raise_regRdata (k : ErrKind) (s : State) : (raise k s).regRdata = s.regRdata := rfl
@[simp] theorem raise_rxq (k : ErrKind) (s : State) : (raise k s).rxq = s.rxq := rfl
@[simp] theorem raise_txq (k : ErrKind) (s : State) : (raise k s).txq = s.txq := rfl
@[simp] theorem raise_transport (k : ErrKind) (s : State) : (raise k s).transport = s.transport := rfl
@[simp] theorem raise_hostProgram (k : ErrKind) (s : State) : (raise k s).hostProgram = s.hostProgram := rfl
@[simp] theorem raise_peerOut (k : ErrKind) (s : State) : (raise k s).peerOut = s.peerOut := rfl
@[simp] theorem raise_peerIn (k : ErrKind) (s : State) : (raise k s).peerIn = s.peerIn := rfl
@[simp] theorem raise_schedule (k : ErrKind) (s : State) : (raise k s).schedule = s.schedule := rfl
@[simp] theorem raise_freeIx (k : ErrKind) (s : State) : (raise k s).freeIx = s.freeIx := rfl

/-! ### `TxByte` (R13) -/

@[simp] theorem txByte_crcAcc (b : Byte) (s : State) : (txByte b s).crcAcc = s.crcAcc := rfl
@[simp] theorem txByte_dbuf (b : Byte) (s : State) : (txByte b s).dbuf = s.dbuf := rfl
@[simp] theorem txByte_rbuf (b : Byte) (s : State) : (txByte b s).rbuf = s.rbuf := rfl
@[simp] theorem txByte_rlen (b : Byte) (s : State) : (txByte b s).rlen = s.rlen := rfl
@[simp] theorem txByte_rptr (b : Byte) (s : State) : (txByte b s).rptr = s.rptr := rfl
@[simp] theorem txByte_reqOp (b : Byte) (s : State) : (txByte b s).reqOp = s.reqOp := rfl
@[simp] theorem txByte_rspOp (b : Byte) (s : State) : (txByte b s).rspOp = s.rspOp := rfl
@[simp] theorem txByte_phase (b : Byte) (s : State) : (txByte b s).phase = s.phase := rfl
@[simp] theorem txByte_opsel (b : Byte) (s : State) : (txByte b s).opsel = s.opsel := rfl
@[simp] theorem txByte_txsel (b : Byte) (s : State) : (txByte b s).txsel = s.txsel := rfl
@[simp] theorem txByte_txi (b : Byte) (s : State) : (txByte b s).txi = s.txi := rfl
@[simp] theorem txByte_txn (b : Byte) (s : State) : (txByte b s).txn = s.txn := rfl
@[simp] theorem txByte_cnt (b : Byte) (s : State) : (txByte b s).cnt = s.cnt := rfl
@[simp] theorem txByte_need (b : Byte) (s : State) : (txByte b s).need = s.need := rfl
@[simp] theorem txByte_sum (b : Byte) (s : State) : (txByte b s).sum = s.sum := rfl
@[simp] theorem txByte_timeout (b : Byte) (s : State) : (txByte b s).timeout = s.timeout := rfl
@[simp] theorem txByte_tlatch (b : Byte) (s : State) : (txByte b s).tlatch = s.tlatch := rfl
@[simp] theorem txByte_timer (b : Byte) (s : State) : (txByte b s).timer = s.timer := rfl
@[simp] theorem txByte_result (b : Byte) (s : State) : (txByte b s).result = s.result := rfl
@[simp] theorem txByte_err0 (b : Byte) (s : State) : (txByte b s).err0 = s.err0 := rfl
@[simp] theorem txByte_err1 (b : Byte) (s : State) : (txByte b s).err1 = s.err1 := rfl
@[simp] theorem txByte_rxLen (b : Byte) (s : State) : (txByte b s).rxLen = s.rxLen := rfl
@[simp] theorem txByte_rxLcs (b : Byte) (s : State) : (txByte b s).rxLcs = s.rxLcs := rfl
@[simp] theorem txByte_rxTfi (b : Byte) (s : State) : (txByte b s).rxTfi = s.rxTfi := rfl
@[simp] theorem txByte_rxDcs (b : Byte) (s : State) : (txByte b s).rxDcs = s.rxDcs := rfl
@[simp] theorem txByte_abortPhase (b : Byte) (s : State) : (txByte b s).abortPhase = s.abortPhase := rfl
@[simp] theorem txByte_abortCnt (b : Byte) (s : State) : (txByte b s).abortCnt = s.abortCnt := rfl
@[simp] theorem txByte_hbuf (b : Byte) (s : State) : (txByte b s).hbuf = s.hbuf := rfl
@[simp] theorem txByte_rst (b : Byte) (s : State) : (txByte b s).rst = s.rst := rfl
@[simp] theorem txByte_tpReset (b : Byte) (s : State) : (txByte b s).tpReset = s.tpReset := rfl
@[simp] theorem txByte_regRdata (b : Byte) (s : State) : (txByte b s).regRdata = s.regRdata := rfl
@[simp] theorem txByte_rxq (b : Byte) (s : State) : (txByte b s).rxq = s.rxq := rfl
@[simp] theorem txByte_txq (b : Byte) (s : State) : (txByte b s).txq = s.txq ++ [b] := rfl
@[simp] theorem txByte_transport (b : Byte) (s : State) : (txByte b s).transport = s.transport := rfl
@[simp] theorem txByte_hostProgram (b : Byte) (s : State) : (txByte b s).hostProgram = s.hostProgram := rfl
@[simp] theorem txByte_peerOut (b : Byte) (s : State) : (txByte b s).peerOut = s.peerOut := rfl
@[simp] theorem txByte_peerIn (b : Byte) (s : State) : (txByte b s).peerIn = s.peerIn := rfl
@[simp] theorem txByte_schedule (b : Byte) (s : State) : (txByte b s).schedule = s.schedule := rfl
@[simp] theorem txByte_freeIx (b : Byte) (s : State) : (txByte b s).freeIx = s.freeIx := rfl

/-! ### what every step does first (log 4, log 12) -/

@[simp] theorem beginStep_crcAcc (s : State) : (beginStep s).crcAcc = s.crcAcc := rfl
@[simp] theorem beginStep_dbuf (s : State) : (beginStep s).dbuf = s.dbuf := rfl
@[simp] theorem beginStep_rbuf (s : State) : (beginStep s).rbuf = s.rbuf := rfl
@[simp] theorem beginStep_rlen (s : State) : (beginStep s).rlen = s.rlen := rfl
@[simp] theorem beginStep_rptr (s : State) : (beginStep s).rptr = s.rptr := rfl
@[simp] theorem beginStep_reqOp (s : State) : (beginStep s).reqOp = s.reqOp := rfl
@[simp] theorem beginStep_rspOp (s : State) : (beginStep s).rspOp = s.rspOp := rfl
@[simp] theorem beginStep_phase (s : State) : (beginStep s).phase = s.phase := rfl
@[simp] theorem beginStep_opsel (s : State) : (beginStep s).opsel = s.opsel := rfl
@[simp] theorem beginStep_txsel (s : State) : (beginStep s).txsel = s.txsel := rfl
@[simp] theorem beginStep_txi (s : State) : (beginStep s).txi = s.txi := rfl
@[simp] theorem beginStep_txn (s : State) : (beginStep s).txn = s.txn := rfl
@[simp] theorem beginStep_cnt (s : State) : (beginStep s).cnt = s.cnt := rfl
@[simp] theorem beginStep_need (s : State) : (beginStep s).need = s.need := rfl
@[simp] theorem beginStep_sum (s : State) : (beginStep s).sum = s.sum := rfl
@[simp] theorem beginStep_timeout (s : State) : (beginStep s).timeout = s.timeout := rfl
@[simp] theorem beginStep_tlatch (s : State) : (beginStep s).tlatch = s.tlatch := rfl
@[simp] theorem beginStep_timer (s : State) : (beginStep s).timer = s.timer := rfl
@[simp] theorem beginStep_result (s : State) : (beginStep s).result = s.result := rfl
@[simp] theorem beginStep_err0 (s : State) : (beginStep s).err0 = s.err0 := rfl
@[simp] theorem beginStep_err1 (s : State) : (beginStep s).err1 = s.err1 := rfl
@[simp] theorem beginStep_rxLen (s : State) : (beginStep s).rxLen = s.rxLen := rfl
@[simp] theorem beginStep_rxLcs (s : State) : (beginStep s).rxLcs = s.rxLcs := rfl
@[simp] theorem beginStep_rxTfi (s : State) : (beginStep s).rxTfi = s.rxTfi := rfl
@[simp] theorem beginStep_rxDcs (s : State) : (beginStep s).rxDcs = s.rxDcs := rfl
@[simp] theorem beginStep_abortPhase (s : State) : (beginStep s).abortPhase = s.abortPhase := rfl
@[simp] theorem beginStep_abortCnt (s : State) : (beginStep s).abortCnt = s.abortCnt := rfl
@[simp] theorem beginStep_hbuf (s : State) : (beginStep s).hbuf = s.hbuf := rfl
@[simp] theorem beginStep_rst (s : State) : (beginStep s).rst = s.rst := rfl
@[simp] theorem beginStep_tpReset (s : State) : (beginStep s).tpReset = false := rfl
@[simp] theorem beginStep_regRdata (s : State) : (beginStep s).regRdata = s.regRdata := rfl
@[simp] theorem beginStep_rxq (s : State) : (beginStep s).rxq = s.rxq := rfl
@[simp] theorem beginStep_txq (s : State) : (beginStep s).txq = s.txq := rfl
@[simp] theorem beginStep_transport (s : State) : (beginStep s).transport = s.transport := rfl
@[simp] theorem beginStep_hostProgram (s : State) : (beginStep s).hostProgram = s.hostProgram := rfl
@[simp] theorem beginStep_peerOut (s : State) : (beginStep s).peerOut = s.peerOut := rfl
@[simp] theorem beginStep_peerIn (s : State) : (beginStep s).peerIn = s.peerIn := rfl
@[simp] theorem beginStep_schedule (s : State) : (beginStep s).schedule = s.schedule.tail := rfl
@[simp] theorem beginStep_freeIx (s : State) : (beginStep s).freeIx = s.freeIx := rfl

/-! ### a word on the host's port (log 3) -/

@[simp] theorem withHostWord_crcAcc (s : State) (w : OpWord) : (withHostWord s w).crcAcc = s.crcAcc := rfl
@[simp] theorem withHostWord_dbuf (s : State) (w : OpWord) : (withHostWord s w).dbuf = s.dbuf := rfl
@[simp] theorem withHostWord_rbuf (s : State) (w : OpWord) : (withHostWord s w).rbuf = s.rbuf := rfl
@[simp] theorem withHostWord_rlen (s : State) (w : OpWord) : (withHostWord s w).rlen = s.rlen := rfl
@[simp] theorem withHostWord_rptr (s : State) (w : OpWord) : (withHostWord s w).rptr = s.rptr := rfl
@[simp] theorem withHostWord_reqOp (s : State) (w : OpWord) : (withHostWord s w).reqOp = s.reqOp := rfl
@[simp] theorem withHostWord_rspOp (s : State) (w : OpWord) : (withHostWord s w).rspOp = s.rspOp := rfl
@[simp] theorem withHostWord_phase (s : State) (w : OpWord) : (withHostWord s w).phase = s.phase := rfl
@[simp] theorem withHostWord_opsel (s : State) (w : OpWord) : (withHostWord s w).opsel = s.opsel := rfl
@[simp] theorem withHostWord_txsel (s : State) (w : OpWord) : (withHostWord s w).txsel = s.txsel := rfl
@[simp] theorem withHostWord_txi (s : State) (w : OpWord) : (withHostWord s w).txi = s.txi := rfl
@[simp] theorem withHostWord_txn (s : State) (w : OpWord) : (withHostWord s w).txn = s.txn := rfl
@[simp] theorem withHostWord_cnt (s : State) (w : OpWord) : (withHostWord s w).cnt = s.cnt := rfl
@[simp] theorem withHostWord_need (s : State) (w : OpWord) : (withHostWord s w).need = s.need := rfl
@[simp] theorem withHostWord_sum (s : State) (w : OpWord) : (withHostWord s w).sum = s.sum := rfl
@[simp] theorem withHostWord_timeout (s : State) (w : OpWord) : (withHostWord s w).timeout = s.timeout := rfl
@[simp] theorem withHostWord_tlatch (s : State) (w : OpWord) : (withHostWord s w).tlatch = s.tlatch := rfl
@[simp] theorem withHostWord_timer (s : State) (w : OpWord) : (withHostWord s w).timer = s.timer := rfl
@[simp] theorem withHostWord_result (s : State) (w : OpWord) : (withHostWord s w).result = s.result := rfl
@[simp] theorem withHostWord_err0 (s : State) (w : OpWord) : (withHostWord s w).err0 = s.err0 := rfl
@[simp] theorem withHostWord_err1 (s : State) (w : OpWord) : (withHostWord s w).err1 = s.err1 := rfl
@[simp] theorem withHostWord_rxLen (s : State) (w : OpWord) : (withHostWord s w).rxLen = s.rxLen := rfl
@[simp] theorem withHostWord_rxLcs (s : State) (w : OpWord) : (withHostWord s w).rxLcs = s.rxLcs := rfl
@[simp] theorem withHostWord_rxTfi (s : State) (w : OpWord) : (withHostWord s w).rxTfi = s.rxTfi := rfl
@[simp] theorem withHostWord_rxDcs (s : State) (w : OpWord) : (withHostWord s w).rxDcs = s.rxDcs := rfl
@[simp] theorem withHostWord_abortPhase (s : State) (w : OpWord) : (withHostWord s w).abortPhase = s.abortPhase := rfl
@[simp] theorem withHostWord_abortCnt (s : State) (w : OpWord) : (withHostWord s w).abortCnt = s.abortCnt := rfl
@[simp] theorem withHostWord_hbuf (s : State) (w : OpWord) : (withHostWord s w).hbuf = s.hbuf := rfl
@[simp] theorem withHostWord_rst (s : State) (w : OpWord) : (withHostWord s w).rst = s.rst := rfl
@[simp] theorem withHostWord_tpReset (s : State) (w : OpWord) : (withHostWord s w).tpReset = s.tpReset := rfl
@[simp] theorem withHostWord_regRdata (s : State) (w : OpWord) : (withHostWord s w).regRdata = s.regRdata := rfl
@[simp] theorem withHostWord_rxq (s : State) (w : OpWord) : (withHostWord s w).rxq = s.rxq := rfl
@[simp] theorem withHostWord_txq (s : State) (w : OpWord) : (withHostWord s w).txq = s.txq := rfl
@[simp] theorem withHostWord_transport (s : State) (w : OpWord) : (withHostWord s w).transport = s.transport := rfl
@[simp] theorem withHostWord_hostProgram (s : State) (w : OpWord) : (withHostWord s w).hostProgram = .word w :: s.hostProgram := rfl
@[simp] theorem withHostWord_peerOut (s : State) (w : OpWord) : (withHostWord s w).peerOut = s.peerOut := rfl
@[simp] theorem withHostWord_peerIn (s : State) (w : OpWord) : (withHostWord s w).peerIn = s.peerIn := rfl
@[simp] theorem withHostWord_schedule (s : State) (w : OpWord) : (withHostWord s w).schedule = .host :: s.schedule := rfl
@[simp] theorem withHostWord_freeIx (s : State) (w : OpWord) : (withHostWord s w).freeIx = s.freeIx := rfl

end Sys2Proof.Machine
end

