-- ==== Sys2Proof/Laws/Ops.lean ====
section
/-! SUPPORT. What each shared operation can do, said once: the lemmas that proofs cite instead of unfolding it. -/

namespace Sys2Proof.Machine

/-! ### The BUSY rule -/

theorem busy_eq_false {s : State} : s.busy = false ↔ s.phase = .idle := by
  simp [State.busy]

theorem busy_eq_true {s : State} : s.busy = true ↔ s.phase ≠ .idle := by
  simp [State.busy]

/-- On an idle block a host write is performed (R71). -/
theorem hostWrite_idle (f : State → State) {s : State} (h : s.phase = .idle) : hostWrite f s = .next (f s) := by
  simp [hostWrite, State.busy, h]

/-- While BUSY a host write is ignored and sets CMD_BUSY (R71). -/
theorem hostWrite_busy (f : State → State) {s : State} (h : s.phase ≠ .idle) :
    hostWrite f s = .next (s.flag .cmdBusy) := by
  simp [hostWrite, State.busy, h]

/-- A host write always completes. -/
theorem hostWrite_cases (f : State → State) (s : State) :
    (s.phase = .idle ∧ hostWrite f s = .next (f s)) ∨
      (s.phase ≠ .idle ∧ hostWrite f s = .next (s.flag .cmdBusy)) := by
  by_cases h : s.phase = .idle
  · exact .inl ⟨h, hostWrite_idle f h⟩
  · exact .inr ⟨h, hostWrite_busy f h⟩

/-! ### Reads -/

/-- A read of any address but RDATA stores the register's byte and has no side effect (R226). -/
theorem hostRead_register {a : Byte} (h : a ≠ 0x0E) (s : State) :
    hostRead a s = { s with regRdata := readRegister a s } := if_neg h

theorem hostRead_rdata (s : State) : hostRead 0x0E s = popRdata s := if_pos rfl

/-- Both cases of a read of RDATA (R42). -/
theorem popRdata_cases (s : State) :
    (s.rptr < s.rlen ∧ popRdata s = { s with
      regRdata := s.rbuf[s.rptr.toNat]?.getD (Config.freeByte s.freeIx), rptr := s.rptr + 1 }) ∨
    (¬ s.rptr < s.rlen ∧ popRdata s = { s.flag .rbufUnderrun with
      regRdata := Config.freeByte s.freeIx, freeIx := s.freeIx + 1 }) := by
  by_cases h : s.rptr < s.rlen
  · exact .inl ⟨h, by simp [popRdata, h]⟩
  · exact .inr ⟨h, by simp [popRdata, h]⟩

/-! ### Buffers -/

/-- Both cases of a push (R221). -/
theorem pushDbuf_cases (b : Byte) (s : State) :
    (254 ≤ s.dbuf.length ∧ pushDbuf b s = s.flag .dbufOvf) ∨
      (s.dbuf.length < 254 ∧ pushDbuf b s = { s with dbuf := s.dbuf ++ [b] }) := by
  by_cases h : 254 ≤ s.dbuf.length
  · exact .inl ⟨h, by simp [pushDbuf, bufferCapacity, h]⟩
  · exact .inr ⟨by omega, by simp [pushDbuf, bufferCapacity, h]⟩

/-- A push changes nothing but DBUF and, on overflow, a flag. -/
theorem pushDbuf_phase (b : Byte) (s : State) : (pushDbuf b s).phase = s.phase := by
  obtain ⟨-, h⟩ | ⟨-, h⟩ := pushDbuf_cases b s <;> simp [h]

theorem length_bufferWrite_le (buffer : List Byte) (i : Nat) (b : Byte) (h : buffer.length ≤ 254) :
    (bufferWrite buffer i b).length ≤ 254 := by
  unfold bufferWrite bufferCapacity
  split
  · simp; omega
  · exact h

/-- A byte written behind the ones that have a value extends them. -/
theorem bufferWrite_length (buffer : List Byte) (b : Byte) (h : buffer.length < 254) :
    bufferWrite buffer buffer.length b = buffer ++ [b] := by
  simp [bufferWrite, bufferCapacity, h]

/-! ### Read phases and the abort -/

/-- `Enter` of a phase that reads at least one byte (R203). -/
theorem enter_pos {p : Phase} {n : Byte} (h : n ≠ 0) (s : State) : enter p n s = loadPhase p n s :=
  if_neg fun hn => h hn.2

/-- `Enter` of an empty payload completes it at once (R182). -/
theorem enter_rdPay_zero (s : State) : enter .rdPay 0 s = loadPhase .rdDcs 1 (loadPhase .rdPay 0 s) := by
  simp [enter]

/-- Both cases of `Enter`. -/
theorem enter_cases (p : Phase) (n : Byte) (s : State) :
    enter p n s = loadPhase p n s ∨
      (p = .rdPay ∧ n = 0 ∧ enter p n s = loadPhase .rdDcs 1 (loadPhase p n s)) := by
  by_cases h : p = .rdPay ∧ n = 0
  · exact .inr ⟨h.1, h.2, if_pos h⟩
  · exact .inl (if_neg h)

/-! ### Queues and the timer -/

theorem hasRoom_unbounded (n : Nat) : hasRoom .unbounded n = true := rfl

theorem txReady_unbounded {s : State} (h : s.transport.txqDepth = .unbounded) : s.txReady = true := by
  simp [State.txReady, h, hasRoom]

/-- The peer's sending step moves its next byte to RXQ, loses it, or changes nothing (R46, U6). -/
theorem peerSendStep_cases (s : State) :
    peerSendStep s = s ∨
      (∃ b rest, s.peerOut = b :: rest ∧ peerSendStep s = { s with rxq := s.rxq ++ [b], peerOut := rest }) ∨
      (∃ b rest, s.peerOut = b :: rest ∧ peerSendStep s = { s with peerOut := rest }) := by
  unfold peerSendStep
  cases h : s.peerOut with
  | nil => exact .inl rfl
  | cons b rest =>
    by_cases hr : hasRoom s.transport.rxqDepth s.rxq.length = true
    · exact .inr (.inl ⟨b, rest, rfl, by simp [hr]⟩)
    · cases hf : s.transport.rxFull with
      | dropNew => exact .inr (.inr ⟨b, rest, rfl, by simp [hr]⟩)
      | stallPeer => exact .inl (by simp [hr])

/-- The peer's taking step moves the head of TXQ to the peer, or changes nothing (R73). -/
theorem peerTakeStep_cases (s : State) :
    (s.txq = [] ∧ peerTakeStep s = s) ∨
      (∃ b rest, s.txq = b :: rest ∧ peerTakeStep s = { s with txq := rest, peerIn := s.peerIn ++ [b] }) := by
  unfold peerTakeStep
  cases h : s.txq with
  | nil => exact .inl ⟨rfl, rfl⟩
  | cons b rest => exact .inr ⟨b, rest, rfl, rfl⟩

/-- A tick counts down a running read timer and changes nothing else (R205). -/
theorem tickStep_cases (s : State) :
    tickStep s = s ∨ (s.phase.isRead = true ∧ 0 < s.timer ∧ tickStep s = { s with timer := s.timer - 1 }) := by
  by_cases h : s.phase.isRead = true ∧ 0 < s.timer
  · exact .inr ⟨h.1, h.2, if_pos h⟩
  · exact .inl (if_neg h)

/-! ### The host's move -/

/-- A word that decodes is performed as its instruction. -/
theorem perform_ok {w : OpWord} {i : Instr} (h : decode w = .ok i) (s : State) : perform w s = exec i s := by
  simp only [perform, h]

/-- A rejected word has the effect of its reason. -/
theorem perform_error {w : OpWord} {r : Reject} (h : decode w = .error r) (s : State) :
    perform w s = execRejected r s := by
  simp only [perform, h]

/-- One read of WAIT changes `reg_rdata` alone; WAIT stays while the value read has BUSY = 1 (R112, R113). -/
theorem waitStep_cases (s : State) :
    (s.phase ≠ .idle ∧ waitStep s = { s with regRdata := s.status, hostProgram := .wait :: s.hostProgram }) ∨
      (s.phase = .idle ∧ waitStep s = { s with regRdata := s.status }) := by
  have hb : s.status.getLsbD 0 = s.busy := by
    unfold State.status State.busy
    cases s.phase <;> cases s.result <;> decide
  have hr : hostRead 0x01 s = { s with regRdata := s.status } := hostRead_register (by decide) s
  unfold waitStep
  rw [hr]
  dsimp only
  rw [hb]
  by_cases h : s.phase = .idle
  · exact .inr ⟨h, by rw [busy_eq_false.2 h]; rfl⟩
  · exact .inl ⟨h, by rw [busy_eq_true.2 h]; rfl⟩

/-- READRSP reads RLEN, and that many pops are the host's next actions (R112). -/
theorem readRspStep_eq (s : State) :
    readRspStep s = { s with
      regRdata := s.rlen
      hostProgram := List.replicate s.rlen.toNat (.word (encode .rbufPop)) ++ s.hostProgram } := rfl

/-- Everything the host's move can be. -/
theorem hostMove_cases (s : State) :
    (s.hostProgram = [] ∧ hostMove s = .next s) ∨
      (∃ w rest, s.hostProgram = .word w :: rest ∧ hostMove s = perform w { s with hostProgram := rest }) ∨
      (∃ rest, s.hostProgram = .wait :: rest ∧ hostMove s = .next (waitStep { s with hostProgram := rest })) ∨
      (∃ rest, s.hostProgram = .readRsp :: rest ∧
        hostMove s = .next (readRspStep { s with hostProgram := rest })) := by
  unfold hostMove
  cases h : s.hostProgram with
  | nil => exact .inl ⟨rfl, rfl⟩
  | cons a rest =>
    cases a with
    | word w => exact .inr (.inl ⟨w, rest, rfl, rfl⟩)
    | wait => exact .inr (.inr (.inl ⟨rest, rfl, rfl⟩))
    | readRsp => exact .inr (.inr (.inr ⟨rest, rfl, rfl⟩))

/-! ### The step -/

/-- With `rst` released a step is the move of the agent whose turn it is (R15). -/
theorem step_run {s : State} (hr : s.rst = false) : step s = move (nextAgent s) (beginStep s) := by
  unfold step
  rw [hr]
  rfl

/-- With `rst` asserted it is what is left of that move (R22). -/
theorem step_held {s : State} (hr : s.rst = true) : step s = resetMove (nextAgent s) (beginStep s) := if_pos hr

/-- A step whose turn is an agent's other than the host is that agent's step. -/
theorem step_agent {s : State} {a : Agent} (hr : s.rst = false) (h : nextAgent s = a) (ha : a ≠ .host) :
    step s = agentStep a (beginStep s) := by
  rw [step_run hr, h]
  cases a <;> first | rfl | exact absurd rfl ha

/-- The host's turn. -/
theorem step_host {s : State} (hr : s.rst = false) (h : nextAgent s = .host) : step s = hostMove (beginStep s) := by
  rw [step_run hr, h]
  rfl

/-- The host's turn with the word `w` on its port: that word is performed. -/
theorem step_host_word {s : State} {w : OpWord} {rest : List HostAction} (hr : s.rst = false) (h : nextAgent s = .host)
    (hp : s.hostProgram = .word w :: rest) :
    step s = perform w { beginStep s with hostProgram := rest } := by
  rw [step_host hr h]
  unfold hostMove
  rw [beginStep_hostProgram, hp]

/-- A move under an asserted `rst` leaves the block as its reset leaves it, the input itself apart (R22). -/
theorem resetMove_atReset {a : Agent} {s t : State} (h : resetMove a s = .next t) :
    ∃ (u : State) (r : Bool), t = { u.blockReset with rst := r } := by
  cases a with
  | host =>
    simp only [resetMove, holdReset] at h
    split at h
    · rename_i v hv
      simp only [Host.Outcome.next.injEq] at h
      exact ⟨{ v with rxq := s.blockReset.rxq, txq := s.blockReset.txq }, v.rst, h.symm⟩
    · simp at h
    · simp at h
  | sequencer | timeBase =>
    simp only [resetMove, Host.Outcome.next.injEq] at h
    exact ⟨s, s.rst, h.symm⟩
  | peerSend =>
    simp only [resetMove, agentStep, Host.Outcome.next.injEq] at h
    subst h
    obtain he | ⟨b, rest, -, he⟩ | ⟨b, rest, -, he⟩ := peerSendStep_cases s.blockReset <;> rw [he]
    · exact ⟨s, s.rst, rfl⟩
    · exact ⟨{ s with rxq := s.rxq ++ [b], peerOut := rest }, s.rst, rfl⟩
    · exact ⟨{ s with peerOut := rest }, s.rst, rfl⟩
  | peerTake =>
    simp only [resetMove, agentStep, Host.Outcome.next.injEq] at h
    subst h
    obtain ⟨-, he⟩ | ⟨b, rest, -, he⟩ := peerTakeStep_cases s.blockReset <;> rw [he]
    · exact ⟨s, s.rst, rfl⟩
    · exact ⟨{ s with txq := rest, peerIn := s.peerIn ++ [b] }, s.rst, rfl⟩
  | rstAssert =>
    simp only [resetMove, agentStep, Host.Outcome.next.injEq] at h
    subst h; exact ⟨s.blockReset, true, rfl⟩
  | rstRelease =>
    simp only [resetMove, agentStep, Host.Outcome.next.injEq] at h
    subst h
    unfold rstReleaseStep
    split
    · exact ⟨s.blockReset, false, rfl⟩
    · exact ⟨s, s.rst, rfl⟩

@[simp] theorem nextAgent_withHostWord (s : State) (w : OpWord) : nextAgent (withHostWord s w) = .host := rfl

end Sys2Proof.Machine
end

