-- ==== Sys2Proof/Laws/Sequencer.lean ====
section
/-! SUPPORT. The inversion of the sequencer's step: one lemma says all it can do, phase by phase. -/

namespace Sys2Proof.Machine

/-- With no enabled step nothing moves. -/
theorem seqStep_disabled {s : State} (h : seqEnabled s = false) : seqStep s = .next s := by
  simp [seqStep, h]

theorem seqStep_enabled {s : State} (h : seqEnabled s = true) : seqStep s = seqMove s := by
  simp [seqStep, h]

/-- Everything the sequencer can do to a state: wait, write a byte in TX_CMD or TX_ACK, receive a byte, expire, or end
DRAIN; with the guard of each (R152, R185, R204, R206, R218). -/
theorem seqStep_cases {s t : State} (h : seqStep s = .next t) :
    (seqEnabled s = false ∧ t = s) ∨
    (s.phase = .txCmd ∧ s.txReady = true ∧ ∃ b, s.txData = some b ∧ t = txCmdAdvance b s) ∨
    (s.phase = .txAck ∧ s.txReady = true ∧ ∃ b, s.txData = some b ∧ txAckAdvance b s = .next t) ∨
    (s.phase.isRead = true ∧ s.cnt < s.need ∧ ∃ b rest, s.rxq = b :: rest ∧ t = receiveStep b rest s) ∨
    (s.phase.isRead = true ∧ s.cnt < s.need ∧ s.rxq = [] ∧ s.timer = 0 ∧ t = expireStep s) ∨
    (s.phase = .drain ∧ s.txq = [] ∧ t = endDrain s) := by
  by_cases he : seqEnabled s = true
  swap
  · rw [Bool.not_eq_true] at he
    rw [seqStep_disabled he] at h
    exact .inl ⟨he, by simpa using h.symm⟩
  · have read (hr : s.phase.isRead = true) (hm : seqMove s = .next (readStep s))
        (hg : s.cnt < s.need ∧ (s.rxValid = true ∨ s.timer = 0)) :
        (∃ b rest, s.rxq = b :: rest ∧ t = receiveStep b rest s) ∨
          (s.rxq = [] ∧ s.timer = 0 ∧ t = expireStep s) := by
      rw [seqStep_enabled he, hm] at h
      simp only [Host.Outcome.next.injEq] at h
      subst h
      cases hq : s.rxq with
      | nil =>
        refine .inr ⟨rfl, ?_, by simp [readStep, hq]⟩
        obtain h | h := hg.2
        · simp [State.rxValid, hq] at h
        · exact h
      | cons b rest => exact .inl ⟨b, rest, rfl, by simp [readStep, hq]⟩
    cases hp : s.phase with
    | idle => simp [seqEnabled, hp] at he
    | txCmd =>
      refine .inr (.inl ⟨rfl, by simpa [seqEnabled, hp] using he, ?_⟩)
      rw [seqStep_enabled he] at h
      simp only [seqMove, hp, writeStep] at h
      split at h
      · simp at h
      · rename_i bs hb
        split at h
        · simp at h
        · rename_i b hi
          exact ⟨b, by simp [State.txData, State.txValid, hp, hb, hi], by simpa using h.symm⟩
    | txAck =>
      refine .inr (.inr (.inl ⟨rfl, by simpa [seqEnabled, hp] using he, ?_⟩))
      rw [seqStep_enabled he] at h
      simp only [seqMove, hp, writeStep] at h
      split at h
      · simp at h
      · rename_i bs hb
        split at h
        · simp at h
        · rename_i b hi
          exact ⟨b, by simp [State.txData, State.txValid, hp, hb, hi], h⟩
    | drain =>
      rw [seqStep_enabled he] at h
      refine .inr (.inr (.inr (.inr (.inr ⟨rfl, by simpa [seqEnabled, hp, State.tpTxempty] using he, ?_⟩))))
      simpa [seqMove, hp] using h.symm
    | rdAck | rdHdr | rdPay | rdDcs | rdPost =>
      have hr : s.phase.isRead = true := by simp [hp, Phase.isRead]
      have hg : s.cnt < s.need ∧ (s.rxValid = true ∨ s.timer = 0) := by simpa [seqEnabled, hp] using he
      rw [← hp]
      obtain h | h := read hr (by simp [seqMove, hp]) hg
      · exact .inr (.inr (.inr (.inl ⟨hr, hg.1, h⟩)))
      · exact .inr (.inr (.inr (.inr (.inl ⟨hr, hg.1, h⟩))))

end Sys2Proof.Machine
end

