-- ==== Sys2Proof/Laws/Buffers.lean ====
section
/-! SUPPORT. Every operation of the machine keeps the form of the buffers (`Memory.wf`: at most 254 bytes each, R40, R41),
from every state. -/

namespace Sys2Proof.Machine

theorem memory_wf_iff (s : State) : Memory.wf s = true ↔ s.dbuf.length ≤ 254 ∧ s.rbuf.length ≤ 254 := by
  simp [Memory.wf, bufferCapacity]

/-- The form depends on the two buffers alone. -/
theorem memory_wf_congr {s t : State} (hd : t.dbuf = s.dbuf) (hr : t.rbuf = s.rbuf) (h : Memory.wf s = true) :
    Memory.wf t = true := by
  rw [memory_wf_iff] at *; rw [hd, hr]; exact h

theorem reset_memory_wf : Memory.wf State.reset = true := rfl

theorem memory_wf_flag (k : ErrKind) {s : State} (h : Memory.wf s = true) : Memory.wf (s.flag k) = true :=
  memory_wf_congr (by simp) (by simp) h

theorem memory_wf_blockReset (s : State) : Memory.wf s.blockReset = true := rfl

theorem memory_wf_raise (k : ErrKind) {s : State} (h : Memory.wf s = true) : Memory.wf (raise k s) = true := by
  rw [memory_wf_iff] at *; simp [h.1]

theorem memory_wf_loadPhase (p : Phase) (n : Byte) {s : State} (h : Memory.wf s = true) :
    Memory.wf (loadPhase p n s) = true :=
  memory_wf_congr (by simp) (by simp) h

theorem memory_wf_enter (p : Phase) (n : Byte) {s : State} (h : Memory.wf s = true) :
    Memory.wf (enter p n s) = true := by
  obtain he | ⟨-, -, he⟩ := enter_cases p n s <;> rw [he]
  · exact memory_wf_loadPhase p n h
  · exact memory_wf_loadPhase _ _ (memory_wf_loadPhase p n h)

theorem memory_wf_clearDbuf {s : State} (h : Memory.wf s = true) : Memory.wf (clearDbuf s) = true := by
  rw [memory_wf_iff] at *; simp [h.2]

theorem memory_wf_pushDbuf (b : Byte) {s : State} (h : Memory.wf s = true) : Memory.wf (pushDbuf b s) = true := by
  obtain ⟨-, hp⟩ | ⟨hl, hp⟩ := pushDbuf_cases b s <;> rw [hp]
  · exact memory_wf_flag _ h
  · rw [memory_wf_iff] at *; simp; omega

theorem memory_wf_clearForDecode {s : State} (h : Memory.wf s = true) : Memory.wf (clearForDecode s) = true := by
  rw [memory_wf_iff] at *; simp [h.1]

/-- Latching REQ_OP changes no buffer. -/
theorem latchReqOp_buffers (s : State) : (latchReqOp s).dbuf = s.dbuf ∧ (latchReqOp s).rbuf = s.rbuf := by
  unfold latchReqOp; split <;> simp

theorem memory_wf_startXact {s : State} (h : Memory.wf s = true) : Memory.wf (startXact s) = true := by
  unfold startXact
  split
  · exact memory_wf_flag _ h
  · refine memory_wf_congr (s := clearForDecode (latchReqOp s)) rfl rfl (memory_wf_clearForDecode ?_)
    exact memory_wf_congr (latchReqOp_buffers s).1 (latchReqOp_buffers s).2 h

/-- A host write keeps the form if its effect does. -/
theorem memory_wf_hostWrite {f : State → State} {s t : State} (hf : Memory.wf s = true → Memory.wf (f s) = true)
    (h : Memory.wf s = true) (ht : hostWrite f s = .next t) : Memory.wf t = true := by
  obtain ⟨-, hw⟩ | ⟨-, hw⟩ := hostWrite_cases f s <;> rw [hw] at ht <;>
    simp only [Host.Outcome.next.injEq] at ht <;> subst ht
  · exact hf h
  · exact memory_wf_flag _ h

theorem memory_wf_carry (data : List Byte) {s t : State} (h : Memory.wf s = true) (ht : carry data s = .next t) :
    Memory.wf t = true :=
  memory_wf_hostWrite (s := { s with hostProgram := carriedRest data ++ s.hostProgram }) memory_wf_clearDbuf
    (memory_wf_congr rfl rfl h) ht

theorem memory_wf_hostRead (a : Byte) {s : State} (h : Memory.wf s = true) : Memory.wf (hostRead a s) = true := by
  by_cases ha : a = 0x0E
  · subst ha
    rw [hostRead_rdata]
    obtain ⟨-, hp⟩ | ⟨-, hp⟩ := popRdata_cases s <;> rw [hp] <;> exact memory_wf_congr rfl rfl h
  · rw [hostRead_register ha]; exact memory_wf_congr rfl rfl h

/-- Every instruction keeps the form of the buffers. -/
theorem memory_wf_exec (i : Instr) {s t : State} (h : Memory.wf s = true) (ht : exec i s = .next t) :
    Memory.wf t = true := by
  cases i with
  | nop => exact memory_wf_hostWrite id h ht
  | bufClr => exact memory_wf_hostWrite memory_wf_clearDbuf h ht
  | crcInit | crcBlk | tpReset | tpFlush | err0Clr m | err1Clr m | tmoLo b | tmoHi b | crcUpd b | rptrSet b =>
    simp only [exec, execCrcInit, execCrcBlk, execTpReset, execTpFlush, execErr0Clr, execErr1Clr, execTmoLo,
      execTmoHi, execCrcUpd, execRptrSet] at ht
    exact memory_wf_hostWrite (fun h => memory_wf_congr rfl rfl h) h ht
  | crcApp =>
    simp only [exec, execCrcApp] at ht
    refine memory_wf_hostWrite (fun h => ?_) h ht
    split
    · exact memory_wf_flag _ h
    · rename_i hl
      rw [memory_wf_iff] at *
      simp [bufferCapacity] at hl ⊢; omega
  | bufPushc b =>
    simp only [exec, execBufPushc] at ht
    refine memory_wf_hostWrite (fun h => ?_) h ht
    split
    · exact memory_wf_flag _ h
    · rename_i hl
      rw [memory_wf_iff] at *
      simp [bufferCapacity] at hl ⊢; omega
  | bufPush b => exact memory_wf_hostWrite (memory_wf_pushDbuf b) h ht
  | frmEnc =>
    simp only [exec, execFrmEnc] at ht
    refine memory_wf_hostWrite (fun h => ?_) h ht
    exact memory_wf_congr (latchReqOp_buffers s).1 (latchReqOp_buffers s).2 h
  | frmAck => exact memory_wf_hostWrite (fun h => memory_wf_congr rfl rfl h) h ht
  | txRaw =>
    simp only [exec, execTxRaw] at ht
    refine memory_wf_hostWrite (fun h => ?_) h ht
    split <;> exact memory_wf_congr rfl rfl h
  | frmDec =>
    simp only [exec, execFrmDec] at ht
    refine memory_wf_hostWrite (fun h => ?_) h ht
    exact memory_wf_enter _ _ (memory_wf_congr (s := clearForDecode s) rfl rfl (memory_wf_clearForDecode h))
  | xact => exact memory_wf_hostWrite memory_wf_startXact h ht
  | srst =>
    simp only [exec, execSrst, Host.Outcome.next.injEq] at ht
    subst ht; exact memory_wf_blockReset s
  | rbufPop =>
    simp only [exec, execRbufPop, Host.Outcome.next.injEq] at ht
    subst ht; exact memory_wf_hostRead _ h
  | rd a =>
    simp only [exec, execRd, Host.Outcome.next.injEq] at ht
    subst ht; exact memory_wf_hostRead _ h
  | getFirmwareVersion p | samConfiguration p | rfConfiguration p | inListPassiveTarget p | inDataExchange p
  | inCommunicateThru p | writeRegister p | tgInitAsTarget p => exact memory_wf_carry _ h ht

/-- So does a rejected word's effect. -/
theorem memory_wf_execRejected (r : Reject) {s t : State} (h : Memory.wf s = true) (ht : execRejected r s = .next t) :
    Memory.wf t = true := by
  cases r with
  | illegalCmd c => exact memory_wf_hostWrite (memory_wf_flag _) h ht
  | readOnly a | reserved a =>
    simp only [execRejected, Host.Outcome.next.injEq] at ht
    subst ht; exact h
  | unlisted op p => exact memory_wf_carry _ h ht

/-! ### The sequencer -/

theorem memory_wf_storeByte (b : Byte) {s : State} (h : Memory.wf s = true) : Memory.wf (storeByte b s) = true := by
  unfold storeByte
  rw [memory_wf_iff] at *
  split <;> first | exact h | exact ⟨h.1, length_bufferWrite_le _ _ _ h.2⟩

theorem memory_wf_complete (b : Byte) {s : State} (h : Memory.wf s = true) : Memory.wf (complete b s) = true := by
  unfold complete
  split
  · refine memory_wf_enter _ _ ?_
    split
    · exact h
    · exact memory_wf_flag _ h
  · unfold completeHdr
    have ht : Memory.wf { s with rxLen := s.hbuf.b3, rxLcs := s.hbuf.b4, rxTfi := s.hbuf.b5 } = true :=
      memory_wf_congr rfl rfl h
    dsimp only
    repeat' split
    all_goals first
      | exact memory_wf_raise _ ht
      | exact memory_wf_enter _ _ (memory_wf_congr rfl rfl ht)
  · exact memory_wf_enter _ _ h
  · unfold completeDcs
    split
    · exact memory_wf_raise _ h
    · exact memory_wf_enter _ _ h
  · unfold completePost
    split
    · exact memory_wf_raise _ h
    · exact memory_wf_congr rfl rfl h
  all_goals exact h

theorem memory_wf_receiveStep (b : Byte) (rest : List Byte) {s : State} (h : Memory.wf s = true) :
    Memory.wf (receiveStep b rest s) = true := by
  have ht : Memory.wf { storeByte b s with rxq := rest, cnt := s.cnt + 1 } = true :=
    memory_wf_congr rfl rfl (memory_wf_storeByte b h)
  unfold receiveStep
  dsimp only
  split
  · exact memory_wf_complete b ht
  · exact ht

theorem memory_wf_txCmdAdvance (b : Byte) {s : State} (h : Memory.wf s = true) :
    Memory.wf (txCmdAdvance b s) = true := by
  unfold txCmdAdvance
  dsimp only
  split
  · split
    · exact memory_wf_enter _ _ (memory_wf_congr rfl rfl h)
    · exact memory_wf_congr rfl rfl h
  · exact memory_wf_congr rfl rfl h

/-- The echo check changes RBUF by its strip alone (R211). -/
theorem memory_wf_echoCheck {s t : State} (h : Memory.wf s = true) (ht : echoCheck s = .next t) :
    Memory.wf t = true := by
  unfold echoCheck at ht
  rw [memory_wf_iff] at *
  split at ht
  · simp only [Host.Outcome.next.injEq] at ht; subst ht; exact h
  · split at ht
    · simp at ht
    · rename_i op rest hb
      simp only [Host.Outcome.next.injEq] at ht
      subst ht
      rw [hb] at h
      simp only [List.length_cons] at h
      dsimp only
      split <;> exact ⟨h.1, by omega⟩

theorem memory_wf_txAckAdvance (b : Byte) {s t : State} (h : Memory.wf s = true) (ht : txAckAdvance b s = .next t) :
    Memory.wf t = true := by
  unfold txAckAdvance at ht
  dsimp only at ht
  split at ht
  · unfold finishDecode at ht
    dsimp only at ht
    split at ht
    · generalize hu : echoCheck _ = u at ht
      cases u with
      | next u =>
        simp only [endOk, Host.Outcome.next.injEq] at ht
        subst ht
        refine memory_wf_congr (s := u) rfl rfl (memory_wf_echoCheck ?_ hu)
        exact memory_wf_congr (s := s) rfl rfl h
      | fault r => simp [endOk] at ht
      | refused r => simp [endOk] at ht
    · simp only [endOk, Host.Outcome.next.injEq] at ht
      subst ht; exact memory_wf_congr rfl rfl h
  · simp only [Host.Outcome.next.injEq] at ht
    subst ht; exact memory_wf_congr rfl rfl h

theorem memory_wf_seqStep {s t : State} (h : Memory.wf s = true) (ht : seqStep s = .next t) :
    Memory.wf t = true := by
  obtain ⟨-, rfl⟩ | ⟨-, -, b, -, rfl⟩ | ⟨-, -, b, -, hb⟩ | ⟨-, -, b, rest, -, rfl⟩ | ⟨-, -, -, -, rfl⟩ | ⟨-, -, rfl⟩ :=
    seqStep_cases ht
  · exact h
  · exact memory_wf_txCmdAdvance b h
  · exact memory_wf_txAckAdvance b h hb
  · exact memory_wf_receiveStep b rest h
  · exact memory_wf_raise _ h
  · exact memory_wf_congr rfl rfl h

/-- So does the host's move. -/
theorem memory_wf_perform (w : OpWord) {s t : State} (h : Memory.wf s = true) (ht : perform w s = .next t) :
    Memory.wf t = true := by
  cases hd : decode w with
  | ok i => rw [perform_ok hd] at ht; exact memory_wf_exec i h ht
  | error r => rw [perform_error hd] at ht; exact memory_wf_execRejected r h ht

theorem memory_wf_hostMove {s t : State} (h : Memory.wf s = true) (ht : hostMove s = .next t) : Memory.wf t = true := by
  obtain ⟨-, he⟩ | ⟨w, rest, -, he⟩ | ⟨rest, -, he⟩ | ⟨rest, -, he⟩ := hostMove_cases s <;> rw [he] at ht
  · simp only [Host.Outcome.next.injEq] at ht; subst ht; exact h
  · exact memory_wf_perform (s := { s with hostProgram := rest }) w (memory_wf_congr (s := s) rfl rfl h) ht
  · simp only [Host.Outcome.next.injEq] at ht
    subst ht
    obtain ⟨-, hw⟩ | ⟨-, hw⟩ := waitStep_cases { s with hostProgram := rest } <;> rw [hw] <;> exact memory_wf_congr rfl rfl h
  · simp only [Host.Outcome.next.injEq] at ht
    subst ht; exact memory_wf_congr rfl rfl h

/-- Every step of every agent keeps the form of the buffers. -/
theorem memory_wf_step {s t : State} (h : Memory.wf s = true) (ht : step s = .next t) : Memory.wf t = true := by
  have hb : Memory.wf (beginStep s) = true := memory_wf_congr rfl rfl h
  cases hr : s.rst with
  | true =>
    rw [step_held hr] at ht
    obtain ⟨u, r, rfl⟩ := resetMove_atReset ht
    exact memory_wf_blockReset u
  | false =>
    cases hn : nextAgent s with
    | host => rw [step_host hr hn] at ht; exact memory_wf_hostMove hb ht
    | sequencer => rw [step_agent hr hn (by decide)] at ht; exact memory_wf_seqStep hb ht
    | timeBase =>
      rw [step_agent hr hn (by decide)] at ht
      simp only [agentStep, Host.Outcome.next.injEq] at ht
      subst ht
      obtain he | ⟨-, -, he⟩ := tickStep_cases (beginStep s) <;> rw [he]
      · exact hb
      · exact memory_wf_congr rfl rfl hb
    | peerSend =>
      rw [step_agent hr hn (by decide)] at ht
      simp only [agentStep, Host.Outcome.next.injEq] at ht
      subst ht
      obtain he | ⟨b, rest, -, he⟩ | ⟨b, rest, -, he⟩ := peerSendStep_cases (beginStep s) <;> rw [he]
      · exact hb
      · exact memory_wf_congr rfl rfl hb
      · exact memory_wf_congr rfl rfl hb
    | peerTake =>
      rw [step_agent hr hn (by decide)] at ht
      simp only [agentStep, Host.Outcome.next.injEq] at ht
      subst ht
      obtain ⟨-, he⟩ | ⟨b, rest, -, he⟩ := peerTakeStep_cases (beginStep s) <;> rw [he]
      · exact hb
      · exact memory_wf_congr rfl rfl hb
    | rstAssert =>
      rw [step_agent hr hn (by decide)] at ht
      simp only [agentStep, Host.Outcome.next.injEq] at ht
      subst ht; exact memory_wf_blockReset (beginStep s)
    | rstRelease =>
      rw [step_agent hr hn (by decide)] at ht
      simp only [agentStep, Host.Outcome.next.injEq] at ht
      subst ht
      unfold rstReleaseStep
      split
      · exact memory_wf_blockReset (beginStep s)
      · exact hb

end Sys2Proof.Machine
end

