-- ==== Sys2Proof/Laws/PerInstr.lean ====
section
/-! SUPPORT. Per instruction: its encoded word has the format, the width and the fixed bits of its row in
spec/opcode_table.json. -/

namespace Sys2Proof.Laws.TableRow

/-- A row of the opcode table: its width in bits, `match` and `mask`. -/
structure Row where
  width : Nat
  pattern : Nat
  mask : Nat
deriving DecidableEq, Repr

/-- The row of each instruction, as spec/opcode_table.json prints it. -/
def row : Instr → Row
  | .nop     => ⟨16, 0x0000, 0xFFFF⟩
  | .bufClr  => ⟨16, 0x0001, 0xFFFF⟩
  | .crcInit => ⟨16, 0x0002, 0xFFFF⟩
  | .crcBlk  => ⟨16, 0x0003, 0xFFFF⟩
  | .crcApp  => ⟨16, 0x0004, 0xFFFF⟩
  | .frmEnc  => ⟨16, 0x0010, 0xFFFF⟩
  | .frmAck  => ⟨16, 0x0011, 0xFFFF⟩
  | .txRaw   => ⟨16, 0x0012, 0xFFFF⟩
  | .frmDec  => ⟨16, 0x0020, 0xFFFF⟩
  | .xact    => ⟨16, 0x0030, 0xFFFF⟩
  | .tpReset => ⟨16, 0x0040, 0xFFFF⟩
  | .tpFlush => ⟨16, 0x0041, 0xFFFF⟩
  | .srst    => ⟨16, 0x007F, 0xFFFF⟩
  | .err0Clr _  => ⟨16, 0x0200, 0xFF00⟩
  | .err1Clr _  => ⟨16, 0x0300, 0xFF00⟩
  | .tmoLo _    => ⟨16, 0x0400, 0xFF00⟩
  | .tmoHi _    => ⟨16, 0x0500, 0xFF00⟩
  | .bufPush _  => ⟨16, 0x0700, 0xFF00⟩
  | .bufPushc _ => ⟨16, 0x0800, 0xFF00⟩
  | .crcUpd _   => ⟨16, 0x0900, 0xFF00⟩
  | .rptrSet _  => ⟨16, 0x0D00, 0xFF00⟩
  | .rbufPop => ⟨8, 0x0E, 0xFF⟩
  | .rd _    => ⟨8, 0x00, 0x00⟩
  | .getFirmwareVersion _  => ⟨8, 0x02, 0xFF⟩
  | .samConfiguration _    => ⟨8, 0x14, 0xFF⟩
  | .rfConfiguration _     => ⟨8, 0x32, 0xFF⟩
  | .inListPassiveTarget _ => ⟨8, 0x4A, 0xFF⟩
  | .inDataExchange _      => ⟨8, 0x40, 0xFF⟩
  | .inCommunicateThru _   => ⟨8, 0x42, 0xFF⟩
  | .writeRegister _       => ⟨8, 0x08, 0xFF⟩
  | .tgInitAsTarget _      => ⟨8, 0x8C, 0xFF⟩

/-- The width and the value of the bits that the table gives a word: a carried command has its opcode byte there. -/
def tableBits : OpWord → Nat × Nat
  | .wr w => (16, w.toNat)
  | .rd a => (8, a.toNat)
  | .carried op _ => (8, op.toNat)

/-- The word of a well-formed instruction is as wide as its row, and has its row's bits under the row's mask. -/
def Statement (i : Instr) : Prop :=
  i.wellFormed = true →
    (tableBits (encode i)).1 = (row i).width ∧ (tableBits (encode i)).2 &&& (row i).mask = (row i).pattern

theorem nop : Statement .nop := fun _ => by decide
theorem bufClr : Statement .bufClr := fun _ => by decide
theorem crcInit : Statement .crcInit := fun _ => by decide
theorem crcBlk : Statement .crcBlk := fun _ => by decide
theorem crcApp : Statement .crcApp := fun _ => by decide
theorem frmEnc : Statement .frmEnc := fun _ => by decide
theorem frmAck : Statement .frmAck := fun _ => by decide
theorem txRaw : Statement .txRaw := fun _ => by decide
theorem frmDec : Statement .frmDec := fun _ => by decide
theorem xact : Statement .xact := fun _ => by decide
theorem tpReset : Statement .tpReset := fun _ => by decide
theorem tpFlush : Statement .tpFlush := fun _ => by decide
theorem srst : Statement .srst := fun _ => by decide

/-- A WR word keeps its address byte under the mask of bits 15:8, whatever the data byte. -/
theorem address_bits (a d : Byte) : (a ++ d : Word16).toNat &&& 0xFF00 = a.toNat * 256 := by
  have h : (a ++ d : Word16).toNat &&& 0xFF00 = ((a ++ d : Word16) &&& 0xFF00#16).toNat := by
    rw [BitVec.toNat_and]; rfl
  have e : (a ++ d : Word16) &&& 0xFF00#16 = (a ++ 0#8 : Word16) := by
    rw [show (0xFF00#16 : Word16) = (0xFF#8 ++ 0x00#8 : Word16) from rfl, BitVec.and_append]
    congr 1
    · exact BitVec.and_allOnes
    · exact BitVec.and_zero
  rw [h, e]
  rw [BitVec.toNat_append, Nat.shiftLeft_eq]
  simp

theorem err0Clr (m : Byte) : Statement (.err0Clr m) := fun _ => ⟨rfl, address_bits 0x02 m⟩
theorem err1Clr (m : Byte) : Statement (.err1Clr m) := fun _ => ⟨rfl, address_bits 0x03 m⟩
theorem tmoLo (b : Byte) : Statement (.tmoLo b) := fun _ => ⟨rfl, address_bits 0x04 b⟩
theorem tmoHi (b : Byte) : Statement (.tmoHi b) := fun _ => ⟨rfl, address_bits 0x05 b⟩
theorem bufPush (b : Byte) : Statement (.bufPush b) := fun _ => ⟨rfl, address_bits 0x07 b⟩
theorem bufPushc (b : Byte) : Statement (.bufPushc b) := fun _ => ⟨rfl, address_bits 0x08 b⟩
theorem crcUpd (b : Byte) : Statement (.crcUpd b) := fun _ => ⟨rfl, address_bits 0x09 b⟩
theorem rptrSet (i : Byte) : Statement (.rptrSet i) := fun _ => ⟨rfl, address_bits 0x0D i⟩
theorem rbufPop : Statement .rbufPop := fun _ => by decide
theorem rd (a : Byte) : Statement (.rd a) := fun _ => ⟨rfl, Nat.and_zero _⟩
theorem getFirmwareVersion (p : List Byte) : Statement (.getFirmwareVersion p) := fun _ => ⟨rfl, by simp only [tableBits, encode, row]; decide⟩
theorem samConfiguration (p : List Byte) : Statement (.samConfiguration p) := fun _ => ⟨rfl, by simp only [tableBits, encode, row]; decide⟩
theorem rfConfiguration (p : List Byte) : Statement (.rfConfiguration p) := fun _ => ⟨rfl, by simp only [tableBits, encode, row]; decide⟩
theorem inListPassiveTarget (p : List Byte) : Statement (.inListPassiveTarget p) := fun _ => ⟨rfl, by simp only [tableBits, encode, row]; decide⟩
theorem inDataExchange (p : List Byte) : Statement (.inDataExchange p) := fun _ => ⟨rfl, by simp only [tableBits, encode, row]; decide⟩
theorem inCommunicateThru (p : List Byte) : Statement (.inCommunicateThru p) := fun _ => ⟨rfl, by simp only [tableBits, encode, row]; decide⟩
theorem writeRegister (p : List Byte) : Statement (.writeRegister p) := fun _ => ⟨rfl, by simp only [tableBits, encode, row]; decide⟩
theorem tgInitAsTarget (p : List Byte) : Statement (.tgInitAsTarget p) := fun _ => ⟨rfl, by simp only [tableBits, encode, row]; decide⟩

end Sys2Proof.Laws.TableRow
end

