-- ==== Sys2Proof/Laws/Runs.lean ====
section
/-! SUPPORT. Runs: sequences of agents' moves and of instructions, taken apart. -/

namespace Sys2Proof.Machine

@[simp] theorem agentRun_nil (s : State) : agentRun [] s = .next s := rfl

/-- The first move of a run, when it answers a state. -/
theorem agentRun_cons {a : Agent} {s t : State} (h : agentStep a s = .next t) (as : List Agent) :
    agentRun (a :: as) s = agentRun as t := by
  simp only [agentRun, h]

/-- A run in two parts. -/
theorem agentRun_append {as : List Agent} {s t : State} (h : agentRun as s = .next t) (bs : List Agent) :
    agentRun (as ++ bs) s = agentRun bs t := by
  induction as generalizing s with
  | nil => simp only [agentRun, Host.Outcome.next.injEq] at h; subst h; rfl
  | cons a as ih =>
    simp only [agentRun, List.cons_append] at h ⊢
    cases ha : agentStep a s with
    | next u => rw [ha] at h; exact ih h
    | fault r => rw [ha] at h; simp at h
    | refused r => rw [ha] at h; simp at h

@[simp] theorem execAll_nil (s : State) : execAll [] s = .next s := rfl

theorem execAll_cons {i : Instr} {s t : State} (h : exec i s = .next t) (is : List Instr) :
    execAll (i :: is) s = execAll is t := by
  simp only [execAll, h]

/-- The sequencer's turn on an idle block moves nothing (R20). -/
theorem agentStep_sequencer_idle {s : State} (h : s.phase = .idle) : agentStep .sequencer s = .next s :=
  seqStep_disabled (by simp [seqEnabled, h])

/-- However many turns the sequencer gets on an idle block, nothing moves. -/
theorem agentRun_sequencer_idle {s : State} (h : s.phase = .idle) (n : Nat) :
    agentRun (List.replicate n .sequencer) s = .next s := by
  induction n with
  | zero => rfl
  | succ n ih => rw [List.replicate_succ, agentRun_cons (agentStep_sequencer_idle h)]; exact ih

end Sys2Proof.Machine
end

