-- ==== Sys2Proof/Tests/Slice0.lean ====
section
/-! SUPPORT. The author's own tests: the checks of WellFormed refuse, every constructor's word decodes, one step of each
instruction on a small state against the spec's worked examples and vectors (95_test_vectors.md, named at each test), and a
witness for every obligation that has hypotheses. -/

namespace Sys2Proof.Tests

open Sys2Proof.Machine Sys2Proof.Spec

/-- What a field of the next state is; none where the machine stopped. -/
def after {α : Type} (o : Outcome) (f : State → α) : Option α :=
  match o with
  | .next t    => some (f t)
  | .fault _   => none
  | .refused _ => none

/-- Bytes by their values. -/
def bytes (l : List Nat) : List Byte := l.map (BitVec.ofNat 8)

/-- An idle block with these bytes in DBUF. -/
def loaded (dbuf : List Nat) : State := { State.reset with dbuf := bytes dbuf }

/-- FRM.ENC of `02` in progress: TX_CMD, nine bytes to write, `i` written. -/
def sending (i : BitVec 9) : State :=
  { loaded [0x02] with phase := .txCmd, txi := i, txn := 9, sum := if 6 < i then 0xD6 else 0xD4, reqOp := 0x02 }

/-- A read phase in progress, `cnt` of `need` bytes received, with these bytes in RXQ. -/
def waiting (p : Phase) (cnt need : Byte) (rx : List Nat) : State :=
  { State.reset with
    phase := p, opsel := .frmDec, cnt := cnt, need := need, rxq := bytes rx, tlatch := 500, timer := 3 }

/-- A successful decode whose closing ACK has one byte to go; the payload is `03 32` (FRM.DEC or XACT). -/
def closing (op : OpSel) : State :=
  { State.reset with
    phase := .txAck, opsel := op, txsel := .ack, txi := 5, txn := 6, reqOp := 0x02, dbuf := [0x02]
    rbuf := [0x03, 0x32], rxLen := 3, sum := 0x0A }

/-- A response of two bytes shown to the host (RLEN = 2). -/
def shown : State := { State.reset with result := .ok, rbuf := [0x32, 0x01], rlen := 2 }

/-- `n` bytes. -/
def many (n : Nat) : List Byte := List.replicate n 0xAA

theorem many_length (n : Nat) : (many n).length = n := List.length_replicate

/-! ### WellFormed refuses -/

theorem test_wf_rd : (Instr.rd 0x0E).wellFormed = false := by decide
theorem test_wf_payload_too_long : payloadFits (many 254) = false := by simp only [payloadFits, many_length]; decide
theorem test_wf_payload_longest : payloadFits (many 253) = true := by simp only [payloadFits, many_length]; decide
theorem test_wf_get_firmware_version : (Instr.getFirmwareVersion (many 254)).wellFormed = false := test_wf_payload_too_long
theorem test_wf_sam_configuration : (Instr.samConfiguration (many 254)).wellFormed = false := test_wf_payload_too_long
theorem test_wf_rf_configuration : (Instr.rfConfiguration (many 254)).wellFormed = false := test_wf_payload_too_long
theorem test_wf_in_list_passive_target : (Instr.inListPassiveTarget (many 254)).wellFormed = false := test_wf_payload_too_long
theorem test_wf_in_data_exchange : (Instr.inDataExchange (many 254)).wellFormed = false := test_wf_payload_too_long
theorem test_wf_in_communicate_thru : (Instr.inCommunicateThru (many 254)).wellFormed = false := test_wf_payload_too_long
theorem test_wf_write_register : (Instr.writeRegister (many 254)).wellFormed = false := test_wf_payload_too_long
theorem test_wf_tg_init_as_target : (Instr.tgInitAsTarget (many 254)).wellFormed = false := test_wf_payload_too_long

/-! ### Decoding: words written out from 30_encoding.md R92, R94 and 44_carried_commands.md R230 -/

theorem test_decode_nop : decode (.wr 0b0000000000000000) = .ok .nop := by decide
theorem test_decode_buf_clr : decode (.wr 0b0000000000000001) = .ok .bufClr := by decide
theorem test_decode_crc_init : decode (.wr 0b0000000000000010) = .ok .crcInit := by decide
theorem test_decode_crc_blk : decode (.wr 0b0000000000000011) = .ok .crcBlk := by decide
theorem test_decode_crc_app : decode (.wr 0b0000000000000100) = .ok .crcApp := by decide
theorem test_decode_frm_enc : decode (.wr 0b0000000000010000) = .ok .frmEnc := by decide
theorem test_decode_frm_ack : decode (.wr 0b0000000000010001) = .ok .frmAck := by decide
theorem test_decode_tx_raw : decode (.wr 0b0000000000010010) = .ok .txRaw := by decide
theorem test_decode_frm_dec : decode (.wr 0b0000000000100000) = .ok .frmDec := by decide
theorem test_decode_xact : decode (.wr 0b0000000000110000) = .ok .xact := by decide
theorem test_decode_tp_reset : decode (.wr 0b0000000001000000) = .ok .tpReset := by decide
theorem test_decode_tp_flush : decode (.wr 0b0000000001000001) = .ok .tpFlush := by decide
theorem test_decode_srst : decode (.wr 0b0000000001111111) = .ok .srst := by decide
theorem test_decode_err0_clr : decode (.wr 0b0000001000000100) = .ok (.err0Clr 0x04) := by decide
theorem test_decode_err1_clr : decode (.wr 0b0000001100111111) = .ok (.err1Clr 0x3F) := by decide
theorem test_decode_tmo_lo : decode (.wr 0b0000010010001000) = .ok (.tmoLo 0x88) := by decide
theorem test_decode_tmo_hi : decode (.wr 0b0000010100010011) = .ok (.tmoHi 0x13) := by decide
theorem test_decode_buf_push : decode (.wr 0b0000011100010100) = .ok (.bufPush 0x14) := by decide
theorem test_decode_buf_pushc : decode (.wr 0b0000100000000101) = .ok (.bufPushc 0x05) := by decide
theorem test_decode_crc_upd : decode (.wr 0b0000100100010010) = .ok (.crcUpd 0x12) := by decide
theorem test_decode_rptr_set : decode (.wr 0b0000110111111110) = .ok (.rptrSet 0xFE) := by decide
theorem test_decode_rbuf_pop : decode (.rd 0b00001110) = .ok .rbufPop := by decide
theorem test_decode_rd : decode (.rd 0b00010111) = .ok (.rd 0x17) := by decide
theorem test_decode_get_firmware_version : decode (.carried 0b00000010 [0x01, 0x00]) = .ok (.getFirmwareVersion [0x01, 0x00]) := by decide
theorem test_decode_sam_configuration : decode (.carried 0b00010100 [0x01, 0x00]) = .ok (.samConfiguration [0x01, 0x00]) := by decide
theorem test_decode_rf_configuration : decode (.carried 0b00110010 [0x01, 0x00]) = .ok (.rfConfiguration [0x01, 0x00]) := by decide
theorem test_decode_in_list_passive_target : decode (.carried 0b01001010 [0x01, 0x00]) = .ok (.inListPassiveTarget [0x01, 0x00]) := by decide
theorem test_decode_in_data_exchange : decode (.carried 0b01000000 [0x01, 0x00]) = .ok (.inDataExchange [0x01, 0x00]) := by decide
theorem test_decode_in_communicate_thru : decode (.carried 0b01000010 [0x01, 0x00]) = .ok (.inCommunicateThru [0x01, 0x00]) := by decide
theorem test_decode_write_register : decode (.carried 0b00001000 [0x01, 0x00]) = .ok (.writeRegister [0x01, 0x00]) := by decide
theorem test_decode_tg_init_as_target : decode (.carried 0b10001100 [0x01, 0x00]) = .ok (.tgInitAsTarget [0x01, 0x00]) := by decide
/-- R22: BUF.PUSH writes 0x42 to 0x07; a CARRIED word's own step is BUF.CLR's write (log 27). -/
theorem test_port_signals :
    (OpWord.wr 0x0742).regAddr = 0x07 ∧ (OpWord.wr 0x0742).regWdata = some 0x42 ∧ (OpWord.rd 0x0E).regRe = true ∧
      (OpWord.carried 0x14 []).regWe = (OpWord.wr 0x0001).regWe ∧
      (OpWord.carried 0x14 []).regAddr = (OpWord.wr 0x0001).regAddr ∧
      (OpWord.carried 0x14 []).regWdata = (OpWord.wr 0x0001).regWdata := by decide
theorem test_decode_illegal : decode (.wr 0b0000000000000101) = .error (.illegalCmd 0x05) := by decide
theorem test_decode_read_only : decode (.wr 0b0000111000000000) = .error (.readOnly 0x0E) := by decide
theorem test_decode_reserved : decode (.wr 0b0001100000000000) = .error (.reserved 0x18) := by decide
theorem test_table_wr : decodeTableWord 16 0x0030 = some .xact := by decide
theorem test_table_rd : decodeTableWord 8 0x0E = some .rbufPop := by decide
theorem test_table_carried : decodeTableWord 8 0x4A = some (.inListPassiveTarget []) := by decide
theorem test_table_none : decodeTableWord 16 0x0005 = none := by decide
theorem test_fetch_word : after (step (State.reset.withFetchWord 16 0x0742)) (·.dbuf) = some [0x42] := by decide

/-- R22: `withFetchWord` releases `rst`, under which no word is performed. -/
theorem test_fetch_word_after_rst :
    after (step ({ State.reset with rst := true }.withFetchWord 16 0x0742)) (fun t => (t.rst, t.dbuf)) = some (false, [0x42]) := by
  decide

/-! ### The functions -/

/-- DV-S15. -/
theorem test_crc_step : crcStep 0x626D 0x34 = 0xCF26 := by decide
/-- DV-C5, GV-1. -/
theorem test_crc : crc (bytes [0x05, 0x00, 0x08]) = 0x10E1 ∧ crc (bytes [0x00, 0x00]) = 0x1EA0 := by decide
/-- DV-E2. -/
theorem test_encode_frame : encodeFrame [0x02] = bytes [0x00, 0x00, 0xFF, 0x02, 0xFE, 0xD4, 0x02, 0x2A, 0x00] := by decide
/-- S7, the response frame `fw` of DV-D1. -/
theorem test_reframe : reframe (bytes [0x03, 0x32, 0x01, 0x06, 0x07]) =
    bytes [0x00, 0x00, 0xFF, 0x06, 0xFA, 0xD5, 0x03, 0x32, 0x01, 0x06, 0x07, 0xE8, 0x00] := by decide
/-- DV-D19. -/
theorem test_decode_function : decodeFunction (ackBytes ++ bytes [0x00, 0x00, 0xFF, 0x03, 0xFD, 0xD5, 0x4B, 0x00, 0xE0, 0x00]) =
    { outcome := .response [0x4B, 0x00], ackMismatch := false, left := [] } := by decide
/-- DV-D21. -/
theorem test_decode_function_loopback :
    decodeFunction (bytes [0x00, 0x00, 0xFF, 0x06, 0xFA, 0xD4, 0x03, 0x32, 0x01, 0x06, 0x07, 0xE9, 0x00]) =
    { outcome := .noResponse .frameStart, ackMismatch := true, left := [0x00] } := by decide
/-- S12: the bytes the host loads for `wupb` end with the CRC of the payload. -/
theorem test_broadcast : broadcastCommand [0xC2] = bytes [0x42, 0xC2, 0xE0, 0xB4] := by decide

/-! ### Reset (R50) -/

theorem test_reset_registers :
    [0x01, 0x02, 0x03, 0x04, 0x05, 0x06, 0x0A, 0x0B, 0x0C, 0x0D, 0x17].map (readRegister · State.reset) =
      bytes [0x00, 0x00, 0x00, 0xF4, 0x01, 0x00, 0x63, 0x63, 0x00, 0x00, 0x01] := by decide
theorem test_reset_ports :
    State.reset.txValid = false ∧ State.reset.txData = none ∧ State.reset.rxReady = false ∧ State.reset.tpReset = false := by
  decide

/-- R22: asserted in mid-operation, `rst` leaves the block idle with TIMEOUT 500 and keeps RXQ. -/
theorem test_rst_assert :
    after (step (turn .rstAssert (waiting .rdHdr 2 6 [0xD5]))) (fun t => (t.status, t.timeout, t.rst, t.rxq)) =
      some (0x00, 500, true, [0xD5]) := by decide
/-- R22: a write under an asserted `rst` is lost; the release leaves the block at reset. -/
theorem test_rst_held :
    after (step (withHostWord { State.reset with rst := true } (.wr 0x0742))) (fun t => (t.dlen, t.rst)) = some (0, true) ∧
    after (step (turn .rstRelease { State.reset with rst := true })) (fun t => (t.status, t.rst)) = some (0x00, false) := by
  decide

/-! ### The host's pseudo-operations (R112, R113) -/

/-- WAIT reads STATUS 0x11 and stays; on an idle block it reads 0x00 and is over. -/
theorem test_wait :
    after (step (turn .host { sending 0 with hostProgram := [.wait] })) (fun t => (t.regRdata, t.hostProgram)) =
      some (0x11, [.wait]) ∧
    after (step (turn .host { State.reset with hostProgram := [.wait] })) (fun t => (t.regRdata, t.hostProgram)) =
      some (0x00, []) := by decide
/-- READRSP with RLEN = 2. -/
theorem test_read_rsp : after (step (turn .host { shown with hostProgram := [.readRsp] })) (fun t => (t.regRdata, t.hostProgram)) =
    some (2, [.word (.rd 0x0E), .word (.rd 0x0E)]) := by decide

/-! ### One step of each instruction -/

/-- R220. -/
theorem test_nop : after (exec .nop (loaded [0x02])) id = some (loaded [0x02]) := by decide
/-- R71. -/
theorem test_nop_busy : after (exec .nop (sending 0)) (·.err1) = some 0x04 := by decide
/-- R222. -/
theorem test_buf_clr : after (exec .bufClr (loaded [0x14, 0x01, 0x00])) (·.dlen) = some 0 := by decide
/-- DV-O3. -/
theorem test_crc_init : after (exec .crcInit { State.reset with crcAcc := 0x626D }) (·.crcAcc) = some 0x6363 := by decide
/-- DV-O4: not from the old accumulator. -/
theorem test_crc_blk : after (exec .crcBlk { loaded [0x12, 0x34] with crcAcc := 0xCF26 }) (·.crcAcc) = some 0xCF26 := by decide
/-- DV-O6. -/
theorem test_crc_app : after (exec .crcApp { loaded [0x05, 0x00, 0x08] with crcAcc := 0x10E1 }) (fun t => (t.dbuf, t.crcAcc)) =
    some (bytes [0x05, 0x00, 0x08, 0xE1, 0x10], 0x10E1) := by decide
/-- DV-F1: STATUS reads 0x11. -/
theorem test_frm_enc : after (exec .frmEnc (loaded [0x02])) (fun t => (t.status, t.reqOp, t.txn)) = some (0x11, 0x02, 9) := by
  decide
/-- DV-E2: the DCS byte, at index 7. -/
theorem test_frm_enc_checksum : after (seqStep (sending 7)) (·.txq) = some [0x2A] := by decide
/-- DV-F3. -/
theorem test_frm_ack : after (exec .frmAck (loaded [0x02])) (fun t => (t.status, t.txn, t.txData)) =
    some (0x11, 6, some 0x00) := by decide
/-- DV-F4. -/
theorem test_tx_raw : after (exec .txRaw (loaded [0x55, 0x55, 0x00])) (fun t => (t.status, t.txn, t.txData)) =
    some (0x11, 3, some 0x55) := by decide
/-- DV-F5. -/
theorem test_tx_raw_empty : after (exec .txRaw (loaded [])) (·.status) = some 0x00 := by decide
/-- DV-X11: STATUS reads 0x21 and the timer is loaded. -/
theorem test_frm_dec : after (exec .frmDec { State.reset with timeout := 3 }) (fun t => (t.status, t.timer, t.need)) =
    some (0x21, 3, 6) := by decide
/-- DV-D13: 0xE9 is a bad checksum for `03 32 01 06 07`. -/
theorem test_frm_dec_checksum :
    after (seqStep { waiting .rdDcs 0 1 [0xE9, 0x00] with sum := 0x18 })
      (fun t => (t.status, t.err0, t.abortPhase, t.abortCnt, t.rxq)) = some (0x04, 0x10, 5, 1, [0x00]) := by decide
/-- R200. -/
theorem test_xact : after (exec .xact (loaded [0x02])) (fun t => (t.status, t.opsel, t.tlatch)) =
    some (0x11, .xact, 500) := by decide
/-- DV-X1: the echoed 0x03 is stripped. -/
theorem test_xact_echo : after (seqStep (closing .xact)) (fun t => (t.status, t.err0, t.rspOp, t.rlen, t.rbuf)) =
    some (0x02, 0x00, 0x03, 1, [0x32]) := by decide
/-- DV-X16. -/
theorem test_tp_reset : after (exec .tpReset { State.reset with rxq := [0xE8, 0x00] }) (fun t => (t.rxq, t.txq, t.status)) =
    some ([], [], 0x00) := by decide
/-- DV-X14. -/
theorem test_tp_flush : after (exec .tpFlush { State.reset with txq := ackBytes }) (·.status) = some 0x81 := by decide
/-- DV-X15. -/
theorem test_tp_flush_empty : after (exec .tpFlush State.reset) (·.status) = some 0x00 := by decide
/-- DV-F6: SRST frees a stalled block and leaves TXQ. -/
theorem test_srst : after (exec .srst { sending 3 with txq := [0x00, 0x00, 0xFF] }) (fun t => (t.status, t.dlen, t.txq)) =
    some (0x00, 0, [0x00, 0x00, 0xFF]) := by decide
/-- R296. -/
theorem test_err0_clr : after (exec (.err0Clr 0x04) { State.reset with err0 := 0x05 }) (·.err0) = some 0x01 := by decide
/-- R296: only the bits written. -/
theorem test_err1_clr : after (exec (.err1Clr 0xFE) { State.reset with err1 := 0x23 }) (·.err1) = some 0x01 := by decide
/-- R223. -/
theorem test_tmo_lo : after (exec (.tmoLo 0x88) State.reset) (·.timeout) = some 0x0188 := by decide
/-- R223. -/
theorem test_tmo_hi : after (exec (.tmoHi 0x13) { State.reset with timeout := 0x0188 }) (·.timeout) = some 5000 := by decide
/-- R221. -/
theorem test_buf_push : after (exec (.bufPush 0x00) (loaded [0x14, 0x01])) (fun t => (t.dbuf, t.crcAcc)) =
    some ([0x14, 0x01, 0x00], 0x6363) := by decide
/-- DV-S18, DV-O7. -/
theorem test_buf_pushc : after (exec (.bufPushc 0x05) (loaded [0x42])) (fun t => (t.dbuf, t.crcAcc)) =
    some ([0x42, 0x05], 0x0653) := by decide
/-- DV-S14, DV-O2: DLEN stays 0. -/
theorem test_crc_upd : after (exec (.crcUpd 0x12) State.reset) (fun t => (t.crcAcc, t.dlen)) = some (0x626D, 0) := by decide
/-- R224. -/
theorem test_rptr_set : after (exec (.rptrSet 0xFF) shown) (·.rptr) = some 0xFF := by decide
/-- R225. -/
theorem test_rbuf_pop : after (exec .rbufPop { shown with rptr := 1 }) (fun t => (t.regRdata, t.rptr, t.err1)) =
    some (0x01, 2, 0x00) := by decide
/-- R225: at RLEN an underrun; the byte is left open. -/
theorem test_rbuf_pop_underrun : after (exec .rbufPop { shown with rptr := 2 }) (fun t => (t.rptr, t.err1)) =
    some (2, 0x10) := by decide
/-- R226. -/
theorem test_rd : after (exec (.rd 0x04) State.reset) (·.regRdata) = some 0xF4 := by decide
/-- R226, DV-X14: allowed while BUSY. -/
theorem test_rd_busy : after (exec (.rd 0x01) (waiting .rdHdr 0 6 [])) (·.regRdata) = some 0x31 := by decide
/-- S7: BUF.CLR now, the push of `02` and XACT next. -/
theorem test_get_firmware_version :
    after (exec (.getFirmwareVersion []) (loaded [0xAA])) (fun t => (t.dbuf, t.status, t.hostProgram)) =
    some ([], 0x00, [.word (.wr 0x0702), .word (.wr 0x0030)]) := by decide
/-- S7, on three turns of the host. -/
theorem test_get_firmware_version_run :
    after (run 3 (turn .host (turn .host (withHostWord State.reset (.carried 0x02 [])))))
      (fun t => (t.dbuf, t.status, t.reqOp)) = some ([0x02], 0x11, 0x02) := by decide
/-- S8. -/
theorem test_sam_configuration : after (exec (.samConfiguration [0x01, 0x00]) State.reset) (·.hostProgram) =
    some [.word (.wr 0x0714), .word (.wr 0x0701), .word (.wr 0x0700), .word (.wr 0x0030)] := by decide
/-- R233. -/
theorem test_rf_configuration : after (exec (.rfConfiguration [0x01]) State.reset) (·.hostProgram) =
    some [.word (.wr 0x0732), .word (.wr 0x0701), .word (.wr 0x0030)] := by decide
/-- S9. -/
theorem test_in_list_passive_target :
    after (exec (.inListPassiveTarget [0x01, 0x00]) (loaded [0xAA])) (fun t => (t.dbuf, t.hostProgram)) =
    some ([], [.word (.wr 0x074A), .word (.wr 0x0701), .word (.wr 0x0700), .word (.wr 0x0030)]) := by decide
/-- S14. -/
theorem test_in_data_exchange : after (exec (.inDataExchange [0x01]) { State.reset with hostProgram := [.wait] })
    (·.hostProgram) = some [.word (.wr 0x0740), .word (.wr 0x0701), .word (.wr 0x0030), .wait] := by decide
/-- S12. -/
theorem test_in_communicate_thru : after (exec (.inCommunicateThru [0x05]) State.reset) (·.hostProgram) =
    some [.word (.wr 0x0742), .word (.wr 0x0705), .word (.wr 0x0030)] := by decide
/-- S13. -/
theorem test_write_register : after (exec (.writeRegister [0x63, 0x3D, 0x00]) State.reset) (·.hostProgram) =
    some [.word (.wr 0x0708), .word (.wr 0x0763), .word (.wr 0x073D), .word (.wr 0x0700), .word (.wr 0x0030)] := by decide
/-- R238, R71: on a busy block each access is turned away by itself, the first one now. -/
theorem test_tg_init_as_target_busy :
    after (exec (.tgInitAsTarget [0x00]) (sending 2)) (fun t => (t.dbuf, t.err1, t.hostProgram.length)) =
    some ([0x02], 0x04, 3) := by decide
/-- R238: the command's opcode. -/
theorem test_tg_init_as_target : after (exec (.tgInitAsTarget []) State.reset) (·.hostProgram) =
    some [.word (.wr 0x078C), .word (.wr 0x0030)] := by decide
/-- R230: an opcode outside the table is no other. -/
theorem test_unlisted : after (perform (.carried 0x06 [0x63]) State.reset) (·.hostProgram) =
    some [.word (.wr 0x0706), .word (.wr 0x0763), .word (.wr 0x0030)] := by decide
/-- S13: the frame of WriteRegister `63 3D 00`. -/
theorem test_write_register_frame : encodeFrame (bytes [0x08, 0x63, 0x3D, 0x00]) =
    bytes [0x00, 0x00, 0xFF, 0x05, 0xFB, 0xD4, 0x08, 0x63, 0x3D, 0x00, 0x84, 0x00] := by decide

/-! ### Witnesses: states and operands that meet the hypotheses of each obligation -/

theorem witness_StepPerformsTheWordOrTheMove : State.reset.rst = false ∧
    decode (.wr 0x0030) = .ok .xact ∧ Agent.sequencer ≠ .host ∧ decodeTableWord 8 0x0E = some .rbufPop := by decide

/-- While BUSY: a write turned away, and one to a read-only register. -/
theorem witness_SrstResetsTheBlock : (sending 0).phase ≠ .idle ∧ (0x0001 : Word16) ≠ 0x007F ∧ (0x0600 : Word16) ≠ 0x007F := by
  decide

theorem witness_BusyIgnoresWrites : (sending 0).phase ≠ .idle ∧ wrAddress 0x0D00 ∈ writable ∧ (0x0D00 : Word16) ≠ 0x007F ∧
    wrAddress 0x0000 ∈ writable ∧ (0x01, 0x11) ∈ registerMap (sending 0) ∧
    { sending 0 with rlen := 1 }.rptr < { sending 0 with rlen := 1 }.rlen := by decide

theorem witness_IllegalCodesOnlyFlag : (0x05 : Byte) ∉ legalCodes ∧ (0xFF : Byte) ∉ legalCodes ∧
    State.reset.phase = .idle ∧ (sending 0).phase ≠ .idle := by decide

theorem witness_ReadOnlyWritesChangeNothing : wrAddress 0x01FF ∈ readOnly ∧ wrAddress 0x1700 ∈ readOnly := by decide

theorem witness_ReservedAddressesAreInert : 0x18 ≤ (wrAddress 0x1800).toNat ∧ 0x18 ≤ (wrAddress 0xFF7F).toNat ∧
    0x18 ≤ (0x18 : Byte).toNat ∧ 0x18 ≤ (0xFF : Byte).toNat := by decide

theorem witness_RdReturnsTheRegister : (0x0F : Byte) ≠ 0x0E ∧ (0x04, 0xF4) ∈ registerMap State.reset ∧
    (0x17, 0x01) ∈ registerMap State.reset ∧ 0x18 ≤ (0x18 : Byte).toNat := by decide

theorem witness_RbufPopReadsAndAdvances :
    ({ shown with rptr := 1 }.rptr < shown.rlen ∧ shown.rbuf[({ shown with rptr := 1 }.rptr).toNat]? = some 0x01) ∧
    ¬ { shown with rptr := 2 }.rptr < shown.rlen ∧ ¬ { shown with rptr := 255 }.rptr < shown.rlen := by decide

/-- For every statement of the form `HostOperation`: an idle and a busy state. -/
theorem witness_HostOperation : State.reset.phase = .idle ∧ (sending 0).phase ≠ .idle := by decide

theorem witness_RptrSetThenPop : shown.phase = .idle ∧ shown.rlen ≤ 2 ∧ shown.rlen ≤ 255 := by decide

/-- Overflow and room of the pushes: 253, 254; of CRC.APP: 252, 253. -/
theorem witness_PushAppendsOrOverflows : (many 253).length < 254 ∧
    ¬ (many 254).length < 254 ∧ (many 252).length ≤ 252 ∧
    ¬ (many 253).length ≤ 252 := by simp only [many_length]; decide

theorem witness_ZeroResidue : State.reset.phase = .idle ∧ (many 252).length ≤ 252 :=
  ⟨rfl, (many_length 252).le⟩

theorem witness_FramesSatisfyTheirInvariants :
    ([] : List Byte).length ≤ 254 ∧ (many 254).length ≤ 254 :=
  ⟨by decide, (many_length 254).le⟩

/-- `rst` asserted with the host, the time base and the release to move; the assertion to come; a release of nothing. -/
theorem witness_RstHoldsTheBlock :
    ({ State.reset with rst := true }.rst = true ∧ nextAgent (withHostWord { State.reset with rst := true } (.wr 0x0001)) = .host ∧
      nextAgent (turn .rstRelease { State.reset with rst := true }) = .rstRelease) ∧
    nextAgent (turn .rstAssert (sending 0)) = .rstAssert ∧
    (nextAgent (turn .rstRelease State.reset) = .rstRelease ∧ (turn .rstRelease State.reset).rst = false) := by decide

/-- WAIT busy and idle, and READRSP. -/
theorem witness_WaitEndsWhenNotBusy :
    (sending 0).rst = false ∧ nextAgent (turn .host (sending 0)) = .host ∧
      { sending 0 with hostProgram := [.wait] }.hostProgram = .wait :: [] ∧ (sending 0).phase ≠ .idle ∧
      State.reset.phase = .idle ∧ { shown with hostProgram := [.readRsp] }.hostProgram = .readRsp :: [] := by decide

/-- A transmit step of each sequence, at its first and last byte, with an accepting and with a full transport. -/
theorem witness_TransmitStep :
    ((sending 0).phase = .txCmd ∧ (sending 0).opsel = .transmit ∧ (sending 0).txsel = .frame ∧
      (encodeFrame (sending 8).dbuf)[(sending 8).txi.toNat]? = some 0x00 ∧ (sending 0).txReady = true) ∧
    ackBytes[({ sending 5 with txsel := .ack, txn := 6 }).txi.toNat]? = some 0x00 ∧
    (sending 0).dbuf[({ sending 0 with txsel := .raw, txn := 1 }).txi.toNat]? = some 0x02 ∧
    ({ sending 0 with transport := ⟨.unbounded, .bounded 0, .dropNew⟩, txq := [0x00] }).txReady = false := by decide

theorem witness_FrmEncSendsTheFrame : (loaded [0x02]).phase = .idle ∧ (loaded [0x02]).dbuf.length ≤ 254 ∧
    (loaded [0x02]).transport.txqDepth = .unbounded := by decide

theorem witness_AckAndRawReachTheTransport : State.reset.phase = .idle ∧ State.reset.transport.txqDepth = .unbounded ∧
    State.reset.dbuf.length ≤ 254 ∧ (loaded [0x55]).dbuf.length ≤ 254 := by decide

theorem witness_RunningSumMakesTheChecksum :
    Invariant (sending 7) ∧ (sending 7).phase = .txCmd ∧ (sending 7).txsel = .frame ∧
      (sending 7).txi.toNat = 6 + (sending 7).dbuf.length := by
  refine ⟨⟨by decide, by decide, by decide, by decide, by decide, ?_, by decide⟩, by decide⟩
  exact ⟨by decide, by decide, by decide, by decide, fun h => nomatch h⟩

theorem witness_AckMismatchIsTolerated :
    (waiting .rdAck 4 6 [0x00]).need = 6 ∧ (waiting .rdAck 4 6 [0x00]).rxq = 0x00 :: [] ∧
      (waiting .rdAck 4 6 [0x00]).cnt < 5 ∧ (waiting .rdAck 5 6 [0x00]).cnt = 5 := by decide

theorem witness_HeaderChecksInOrder :
    (waiting .rdHdr 0 6 [0xD5]).need = 6 ∧ (waiting .rdHdr 4 6 [0xD5]).cnt < 5 ∧
      (waiting .rdHdr 5 6 [0xD5, 0x00]).rxq = 0xD5 :: [0x00] ∧ (waiting .rdHdr 5 6 [0xD5]).cnt = 5 := by decide

theorem witness_PayloadBytesAreStored :
    (waiting .rdPay 253 254 [0xAA]).cnt < (waiting .rdPay 253 254 [0xAA]).need ∧
      (waiting .rdPay 253 254 [0xAA]).cnt.toNat < 254 ∧
      (waiting .rdPay 0 1 [0xAA]).rbuf.length = (waiting .rdPay 0 1 [0xAA]).cnt.toNat ∧
      (waiting .rdPay 0 1 [0xAA]).rxq = 0xAA :: [] := by decide

theorem witness_ChecksumAndPostambleAreChecked :
    (waiting .rdDcs 0 1 [0xE8]).need = 1 ∧ (waiting .rdDcs 0 1 [0xE8]).cnt = 0 ∧
      (waiting .rdDcs 0 1 [0xE8]).rxq = 0xE8 :: [] ∧ (waiting .rdPost 0 1 [0x00]).rxq = 0x00 :: [] ∧
      (waiting .rdDcs 0 1 []).rxq = [] ∧ { waiting .rdDcs 0 1 [] with timer := 0 }.timer = 0 := by decide

/-- An abort by a check in each of the three phases, and one by the timer. -/
theorem witness_AbortsAreRecorded :
    (waiting .rdPost 0 1 [0x01]).phase.isRead = true ∧
    (∃ t, seqStep (waiting .rdPost 0 1 [0x01]) = .next t ∧ t.phase = .idle) ∧
    (∃ t, seqStep (waiting .rdHdr 5 6 [0xD5]) = .next t ∧ t.phase = .idle) ∧
    (∃ t, seqStep (waiting .rdDcs 0 1 [0x01]) = .next t ∧ t.phase = .idle) ∧
    (∃ t, seqStep { waiting .rdAck 3 6 [] with timer := 0 } = .next t ∧ t.phase = .idle) :=
  ⟨by decide, ⟨_, rfl, by decide⟩, ⟨_, rfl, by decide⟩, ⟨_, rfl, by decide⟩, ⟨_, rfl, by decide⟩⟩

theorem witness_ReceiveBeforeExpire :
    (waiting .rdAck 0 6 [0x00]).phase.isRead = true ∧ (waiting .rdAck 5 6 []).cnt < (waiting .rdAck 5 6 []).need ∧
      (waiting .rdAck 0 6 [0x00]).cnt + 1 ≠ (waiting .rdAck 0 6 [0x00]).need ∧ (waiting .rdAck 5 6 []).rxq = [] ∧
      { waiting .rdAck 5 6 [] with timer := 0 }.timer = 0 ∧ (waiting .rdAck 5 6 []).timer ≠ 0 := by decide

theorem witness_TickCountsOnlyInReadPhases :
    (waiting .rdAck 0 6 []).phase ∈ [Phase.rdAck, .rdHdr, .rdPay, .rdDcs, .rdPost] ∧ (waiting .rdAck 0 6 []).timer ≠ 0 ∧
      State.reset.phase ∉ [Phase.rdAck, .rdHdr, .rdPay, .rdDcs, .rdPost] ∧
      { waiting .rdPost 0 1 [] with timer := 0 }.timer = 0 := by decide

/-- TIMER = 3 with two ticks and with three. -/
theorem witness_PhaseExpiresAfterExactlyItsTicks :
    (waiting .rdAck 5 6 []).phase.isRead = true ∧ (waiting .rdAck 5 6 []).cnt < (waiting .rdAck 5 6 []).need ∧
      (waiting .rdAck 5 6 []).rxq = [] ∧ 2 < (waiting .rdAck 5 6 []).timer.toNat ∧
      (waiting .rdAck 5 6 []).timer.toNat ≤ 3 := by decide

theorem witness_ClosingAckAndEchoCheck :
    ((closing .frmDec).phase = .txAck ∧ (closing .frmDec).txn = 6 ∧ (closing .frmDec).txReady = true ∧
      (closing .frmDec).txi.toNat = 5 ∧ (closing .frmDec).opsel ≠ .xact) ∧
    ({ closing .xact with txi := 4 }.txi.toNat = 4 ∧ { closing .xact with rxLen := 1, rbuf := [] }.rxLen = 1) ∧
    ((closing .xact).rxLen ≠ 1 ∧ (closing .xact).rbuf = 0x03 :: [0x32]) ∧
    ({ closing .xact with transport := ⟨.unbounded, .bounded 0, .dropNew⟩, txq := [0x00] }).txReady = false := by decide

/-- XACT's step in TX_CMD: at the last frame byte, before it, and stalled. -/
theorem witness_XactStartsOrIsRefused :
    ({ sending 8 with opsel := .xact }.phase = .txCmd ∧ { sending 8 with opsel := .xact }.opsel = .xact ∧
      (sending 8).txi + 1 = (sending 8).txn ∧ (encodeFrame (sending 8).dbuf)[(sending 8).txi.toNat]? = some 0x00 ∧
      (sending 8).dbuf.length ≤ 254 ∧ (sending 8).txReady = true) ∧
    ((sending 7).txi + 1 ≠ (sending 7).txn ∧ (encodeFrame (sending 7).dbuf)[(sending 7).txi.toNat]? = some 0x2A) ∧
    ({ sending 7 with opsel := .xact, transport := ⟨.unbounded, .bounded 0, .dropNew⟩, txq := [0x00] }).txReady = false := by
  decide

theorem witness_CarriedCommands : carriedTable ≠ [] ∧ State.reset.phase = .idle ∧ (sending 0).phase ≠ .idle ∧
    State.reset.rst = false ∧ ([] : List Byte).length ≤ 253 ∧ (many 253).length ≤ 253 := by
  exact ⟨by simp [carriedTable], by decide, by decide, by decide, by decide, (many_length 253).le⟩

theorem witness_RoundTripRecoversTheData :
    ({ State.reset with rxq := ackBytes ++ reframe [] ++ [0xAA, 0xBB] }).rxq = ackBytes ++ reframe [] ++ [0xAA, 0xBB] ∧
      State.reset.phase = .idle ∧ State.reset.transport.txqDepth = .unbounded ∧
      (many 254).length ≤ 254 :=
  ⟨rfl, rfl, rfl, (many_length 254).le⟩

theorem witness_StepsRefineTheDecodeFunction :
    State.reset.phase = .idle ∧ State.reset.transport.txqDepth = .unbounded ∧ State.reset.rxq.length + 6 ≤ 6 ∧
      (decodeFunction State.reset.rxq).outcome = .noResponse .timeout ∧
      (decodeFunction (ackBytes ++ reframe [0x4B, 0x00])).outcome = .response [0x4B, 0x00] := by decide

theorem witness_TransactionEndToEnd :
    (loaded [0x02]).phase = .idle ∧ (loaded [0x02]).dbuf = 0x02 :: [] ∧
      (loaded [0x02]).transport.txqDepth = .unbounded ∧
      { loaded [0x02] with rxq := ackBytes ++ reframe [0x03, 0x32] ++ [] }.rxq = ackBytes ++ reframe [0x03, 0x32] ++ [] ∧
      (many 253).length ≤ 253 ∧ (many 254).length ≤ 254 :=
  ⟨rfl, rfl, rfl, rfl, (many_length 253).le, (many_length 254).le⟩

/-- The second clause: DRAIN with and without bytes. -/
theorem witness_TpFlushWaitsForTxq : { State.reset with phase := .drain }.txq = [] ∧
    { State.reset with phase := .drain, txq := [0x00] }.txq ≠ [] := by decide

/-- An unbounded queue; a queue of one byte with room, full and dropping, full and stalling; and a byte to take. -/
theorem witness_PeerMovesBytesInOrder :
    { State.reset with peerOut := [0x01] }.peerOut = 0x01 :: [] ∧ State.reset.transport.rxqDepth = .unbounded ∧
      (State.powerUp ⟨.bounded 0, .unbounded, .dropNew⟩ [] []).rxq.length < 0 + 1 ∧
      0 + 1 ≤ (State.powerUp ⟨.bounded 0, .unbounded, .dropNew⟩ [0x05] []).rxq.length ∧
      (State.powerUp ⟨.bounded 0, .unbounded, .stallPeer⟩ [0x05] []).transport.rxFull = .stallPeer ∧
      (State.powerUp ⟨.bounded 0, .unbounded, .dropNew⟩ [] [0x07]).txq = 0x07 :: [] := by decide

/-- A stalled FRM.ENC with a host write, a tick and a turn of the sequencer to come (DV-F6). -/
def stalled : State :=
  { sending 1 with
    transport := ⟨.unbounded, .bounded 0, .dropNew⟩, txq := [0x00]
    hostProgram := [.word (.wr 0x0001)], schedule := [.host, .timeBase, .sequencer] }

theorem witness_StalledWriteNeverEnds :
    stalled.phase = .txCmd ∧ stalled.txReady = false ∧ stalled.rst = false ∧ 3 ≤ stalled.schedule.length ∧
      (∀ a ∈ stalled.schedule, a ≠ .peerTake ∧ a ≠ .rstAssert) ∧
      (∀ a ∈ stalled.hostProgram, a ≠ .word (.wr 0x007F)) := by decide

/-- For EveryStepKeepsTheInvariant and NoStepStops: a state in mid-transaction that meets the invariant and steps. -/
theorem witness_EveryStepKeepsTheInvariant : Invariant (sending 7) ∧ ∃ t, step (sending 7) = .next t :=
  ⟨witness_RunningSumMakesTheChecksum.1, _, rfl⟩

/-- The host about to issue one operation word. -/
def issuing (w : Word16) (s : State) : State := withHostWord s (.wr w)

theorem witness_CrcAccHasItsWritersOnly : ∃ t, step (issuing 0x0912 State.reset) = .next t ∧
    t.crcAcc ≠ (issuing 0x0912 State.reset).crcAcc := ⟨_, rfl, by decide⟩

theorem witness_TimeoutHasItsWritersOnly : ∃ t, step (issuing 0x0488 State.reset) = .next t ∧
    t.timeout ≠ (issuing 0x0488 State.reset).timeout := ⟨_, rfl, by decide⟩

/-- A flag of each register, cleared by the host: bit 0 of ERR0, bit 5 of ERR1. -/
theorem witness_OnlyTheHostClearsFlags :
    (∃ t, step (issuing 0x0201 { State.reset with err0 := 0x01 }) = .next t ∧
      (0x01 : Byte).getLsbD 0 = true ∧ t.err0.getLsbD 0 = false) ∧
    (∃ t, step (issuing 0x0320 { State.reset with err1 := 0x20 }) = .next t ∧
      (0x20 : Byte).getLsbD 5 = true ∧ t.err1.getLsbD 5 = false) :=
  ⟨⟨_, rfl, by decide⟩, ⟨_, rfl, by decide⟩⟩

theorem witness_RunningOperationKeepsItsInputs :
    (issuing 0x0001 (sending 1)).phase ≠ .idle ∧
      ∃ t, step (issuing 0x0001 (sending 1)) = .next t ∧ t.phase ≠ .idle := ⟨by decide, _, rfl, by decide⟩

/-- The peer's two steps and the sequencer's receive. -/
theorem witness_StreamsAreFirstInFirstOut :
    (∃ t, step (turn .peerTake { State.reset with txq := [0x07] }) = .next t) ∧
    (∃ t, step (turn .peerSend { State.reset with peerOut := [0x07] }) = .next t) ∧
    (∃ t, step (turn .sequencer (waiting .rdAck 0 6 [0x00])) = .next t ∧ t.rxq = []) := ⟨⟨_, rfl⟩, ⟨_, rfl⟩, ⟨_, rfl, rfl⟩⟩

theorem witness_OnlyWritePhasesTransmit : ∃ t, step (turn .sequencer (sending 1)) = .next t ∧
    (turn .sequencer (sending 1)).txq.length < t.txq.length := ⟨_, rfl, by decide⟩

theorem witness_DecodeOfEncode : (Instr.rd 0x0D).wellFormed = true ∧ (Instr.inDataExchange [0x01]).wellFormed = true ∧
    (Instr.bufPush 0xFF).wellFormed = true := by decide

theorem witness_EncodeOfDecode : decode (.wr 0x0DFF) = .ok (.rptrSet 0xFF) ∧ decode (.rd 0x18) = .ok (.rd 0x18) := by decide

end Sys2Proof.Tests
end

section
/-! PROOF. A step of the machine against `perform`, `exec` and `agentStep` (00_scope.md R15, 30_encoding.md R90). -/

namespace Sys2Proof.Machine

/-! ### The word on the host's port -/

/-- A word that decodes is performed as its instruction (R90). -/
theorem perform_of_decode {w : OpWord} {i : Instr} (hd : decode w = .ok i) (s : State) : perform w s = exec i s := by
  unfold perform
  rw [hd]

/-- A table word that the decoder reads as `i` is a host port word that decodes to `i`. -/
theorem decode_tableOpWord {nbits w : Nat} {i : Instr} (hd : decodeTableWord nbits w = some i) :
    decode (tableOpWord nbits w) = .ok i := by
  unfold decodeTableWord at hd
  split at hd
  · cases hw : decode (tableOpWord nbits w) with
    | ok j =>
      rw [hw] at hd
      exact congrArg Except.ok (Option.some.inj hd)
    | error r =>
      rw [hw] at hd
      nomatch hd
  · nomatch hd

/-! ### What a step uses up -/

/-- Of a state with a word put on the host's port, a step uses up the turn and the word, and the strobe falls (log 12). -/
theorem beginStep_withHostWord (s : State) (w : OpWord) :
    { beginStep (withHostWord s w) with hostProgram := s.hostProgram } = { s with tpReset := false } := rfl

@[simp] theorem nextAgent_turn (a : Agent) (s : State) : nextAgent (turn a s) = a := rfl

/-- Of a state with a turn put at the schedule's head, a step uses up that turn, and the strobe falls (log 12). -/
theorem beginStep_turn (a : Agent) (s : State) : beginStep (turn a s) = { s with tpReset := false } := rfl

/-- A table word is presented on the port of the same state with `rst` released (log 3). -/
theorem withFetchWord_eq (s : State) (nbits w : Nat) :
    s.withFetchWord nbits w = withHostWord { s with rst := false } (tableOpWord nbits w) := rfl

/-! ### The step, by whose turn it is -/

/-- With `rst` released, a word put on the host's port is performed by the next step. -/
theorem step_withHostWord {s : State} (hr : s.rst = false) (w : OpWord) :
    step (withHostWord s w) = perform w { s with tpReset := false } := by
  rw [step_host_word (s := withHostWord s w) hr (nextAgent_withHostWord s w) (withHostWord_hostProgram s w),
    beginStep_withHostWord]

/-- With `rst` released, a word that decodes, put on the host's port, is executed by the next step. -/
theorem step_withHostWord_of_decode {s : State} {w : OpWord} {i : Instr} (hr : s.rst = false) (hd : decode w = .ok i) :
    step (withHostWord s w) = exec i { s with tpReset := false } := by
  rw [step_withHostWord hr, perform_of_decode hd]

/-- With `rst` released, the turn of an agent other than the host is that agent's move. -/
theorem step_turn {s : State} {a : Agent} (hr : s.rst = false) (ha : a ≠ .host) :
    step (turn a s) = agentStep a { s with tpReset := false } := by
  rw [step_agent (s := turn a s) hr (nextAgent_turn a s) ha, beginStep_turn]

/-- The next step after placing a table word that the decoder reads as `i` executes `i`, with `rst` released. -/
theorem step_withFetchWord {nbits w : Nat} {i : Instr} (hd : decodeTableWord nbits w = some i) (s : State) :
    step (s.withFetchWord nbits w) = exec i { s with tpReset := false, rst := false } := by
  rw [withFetchWord_eq]
  exact step_withHostWord_of_decode (s := { s with rst := false }) rfl (decode_tableOpWord hd)

/-- Settles O4: one clause per kind of turn, each by the step lemma of that turn. -/
theorem stepPerformsTheWordOrTheMove : Obligations.StepPerformsTheWordOrTheMove := by
  unfold Obligations.StepPerformsTheWordOrTheMove
  refine ⟨?word, ?decoded, ?agent, ?table⟩
  case word => exact fun _ w hr => step_withHostWord hr w
  case decoded => exact fun _ _ _ hr hd => step_withHostWord_of_decode hr hd
  case agent => exact fun _ _ hr ha => step_turn hr ha
  case table => exact fun s _ _ _ hd => step_withFetchWord hd s

end Sys2Proof.Machine
end

section
/-! PROOF. What a step of each agent leaves unchanged: the registers that only their own operations write (10_state.md R24, R35, R38, R47). -/

namespace Sys2Proof.Machine

open Sys2Proof.Spec

/-! ### The flags -/

/-- Every flag that is set in `s` is set in `t` (R38). -/
structure FlagsKept (s t : State) : Prop where
  err0 : ∀ k, s.err0.getLsbD k = true → t.err0.getLsbD k = true
  err1 : ∀ k, s.err1.getLsbD k = true → t.err1.getLsbD k = true

theorem FlagsKept.of_eq {s t : State} (h0 : t.err0 = s.err0) (h1 : t.err1 = s.err1) : FlagsKept s t :=
  ⟨fun _ h => h0 ▸ h, fun _ h => h1 ▸ h⟩

theorem FlagsKept.refl (s : State) : FlagsKept s s := .of_eq rfl rfl

theorem FlagsKept.trans {s t u : State} (h : FlagsKept s t) (h' : FlagsKept t u) : FlagsKept s u :=
  ⟨fun k hk => h'.err0 k (h.err0 k hk), fun k hk => h'.err1 k (h.err1 k hk)⟩

/-- Setting a flag clears none (R292). -/
theorem flagsKept_flag (k : ErrKind) (s : State) : FlagsKept s (s.flag k) :=
  ⟨fun _ h => by simp [h], fun _ h => by simp [h]⟩

/-- A flag stands after the host's clear unless the host wrote a one to its bit (R296). -/
theorem getLsbD_clearFlags {flags : Byte} {k : Nat} (h : flags.getLsbD k = true) (m : Byte) :
    (clearFlags flags m).getLsbD k = true ∨ m.getLsbD k = true := by
  have hk : k < 8 := BitVec.lt_of_getLsbD h
  cases hm : m.getLsbD k with
  | true => exact .inr rfl
  | false => exact .inl (by simp only [clearFlags, BitVec.getLsbD_and, BitVec.getLsbD_not, h, hm, hk]; rfl)

/-! ### The registers with writers of their own -/

/-- From `s` to `t` no register changed that only certain operations write, and no flag was cleared. -/
structure Spared (s t : State) : Prop where
  rst : t.rst = s.rst
  crcAcc : t.crcAcc = s.crcAcc
  timeout : t.timeout = s.timeout
  txq : t.txq = s.txq
  flags : FlagsKept s t

/-- The registers that `Spared` reads. -/
def ownedRegs (s : State) : Bool × Word16 × Word16 × List Byte × Byte × Byte :=
  (s.rst, s.crcAcc, s.timeout, s.txq, s.err0, s.err1)

theorem Spared.of_eq {s t : State} (h : ownedRegs t = ownedRegs s) : Spared s t := by
  simp only [ownedRegs, Prod.mk.injEq] at h
  obtain ⟨hrst, hcrc, htmo, htxq, h0, h1⟩ := h
  exact ⟨hrst, hcrc, htmo, htxq, .of_eq h0 h1⟩

theorem Spared.refl (s : State) : Spared s s := .of_eq rfl

theorem Spared.trans {s t u : State} (h : Spared s t) (h' : Spared t u) : Spared s u where
  rst := h'.rst.trans h.rst
  crcAcc := h'.crcAcc.trans h.crcAcc
  timeout := h'.timeout.trans h.timeout
  txq := h'.txq.trans h.txq
  flags := h.flags.trans h'.flags

theorem spared_flag (k : ErrKind) (s : State) : Spared s (s.flag k) := ⟨rfl, rfl, rfl, rfl, flagsKept_flag k s⟩

/-- A host write of a sparing effect spares, performed or not (R71). -/
theorem spared_hostWrite {f : State → State} {s t : State} (hf : Spared s (f s)) (h : hostWrite f s = .next t) :
    Spared s t := by
  obtain ⟨-, hw⟩ | ⟨-, hw⟩ := hostWrite_cases f s <;> rw [hw, Host.Outcome.next.injEq] at h <;> subst h
  · exact hf
  · exact spared_flag _ s

/-- A read changes `reg_rdata`, and in an underrun a flag, of these (R42, R226). -/
theorem spared_hostRead (a : Byte) (s : State) : Spared s (hostRead a s) := by
  by_cases ha : a = 0x0E
  · subst ha
    rw [hostRead_rdata]
    obtain ⟨-, hp⟩ | ⟨-, hp⟩ := popRdata_cases s <;> rw [hp]
    · exact .of_eq rfl
    · exact (spared_flag .rbufUnderrun s).trans (.of_eq rfl)
  · rw [hostRead_register ha]
    exact .of_eq rfl

/-- The first access of a carried command is BUF.CLR's (log 1). -/
theorem spared_carry {data : List Byte} {s t : State} (h : carry data s = .next t) : Spared s t := by
  have hrest : Spared s { s with hostProgram := carriedRest data ++ s.hostProgram } := .of_eq rfl
  exact hrest.trans (spared_hostWrite (.of_eq rfl) h)

/-- What the block does with a word that is no operation spares them (R61, R62, R93, R230). -/
theorem spared_execRejected {r : Reject} {s t : State} (h : execRejected r s = .next t) : Spared s t := by
  cases r with
  | illegalCmd c => exact spared_hostWrite (spared_flag _ s) h
  | readOnly a | reserved a =>
    rw [execRejected, Host.Outcome.next.injEq] at h
    exact h ▸ .refl s
  | unlisted op p => exact spared_carry h

theorem spared_waitStep (s : State) : Spared s (waitStep s) := by
  obtain ⟨-, hw⟩ | ⟨-, hw⟩ := waitStep_cases s <;> rw [hw] <;> exact .of_eq rfl

theorem spared_readRspStep (s : State) : Spared s (readRspStep s) := .of_eq rfl

/-! ### The host's instructions -/

/-- CRC_ACC's writers but `rst` (R24). -/
def WritesCrcAcc (i : Instr) : Prop :=
  i = .crcInit ∨ i = .crcBlk ∨ i = .srst ∨ (∃ b, i = .crcUpd b) ∨ ∃ b, i = .bufPushc b

/-- TIMEOUT's writers but `rst` (R35, R51). -/
def WritesTimeout (i : Instr) : Prop := i = .srst ∨ (∃ b, i = .tmoLo b) ∨ ∃ b, i = .tmoHi b

/-- What the instruction `i` can do to the registers that have writers of their own. -/
structure ExecFrame (i : Instr) (s t : State) : Prop where
  rst : t.rst = s.rst
  crcAcc : t.crcAcc = s.crcAcc ∨ WritesCrcAcc i
  timeout : t.timeout = s.timeout ∨ WritesTimeout i
  txq : t.txq = s.txq ∨ t.txq = []
  err0 : ∀ k, s.err0.getLsbD k = true → t.err0.getLsbD k = true ∨ i = .srst ∨ ∃ m, m.getLsbD k = true ∧ i = .err0Clr m
  err1 : ∀ k, s.err1.getLsbD k = true → t.err1.getLsbD k = true ∨ i = .srst ∨ ∃ m, m.getLsbD k = true ∧ i = .err1Clr m

/-- An instruction that spares the registers, of whichever name. -/
theorem Spared.execFrame {s t : State} (h : Spared s t) (i : Instr) : ExecFrame i s t where
  rst := h.rst
  crcAcc := .inl h.crcAcc
  timeout := .inl h.timeout
  txq := .inl h.txq
  err0 k hk := .inl (h.flags.err0 k hk)
  err1 k hk := .inl (h.flags.err1 k hk)

/-- A change that spares the registers may come before. -/
theorem ExecFrame.after {i : Instr} {s t u : State} (h : ExecFrame i t u) (h' : Spared s t) : ExecFrame i s u where
  rst := h.rst.trans h'.rst
  crcAcc := h.crcAcc.imp_left (·.trans h'.crcAcc)
  timeout := h.timeout.imp_left (·.trans h'.timeout)
  txq := h.txq.imp_left (·.trans h'.txq)
  err0 k hk := h.err0 k (h'.flags.err0 k hk)
  err1 k hk := h.err1 k (h'.flags.err1 k hk)

/-- A host write turned away sets a flag; performed, it has its effect (R71). -/
theorem execFrame_hostWrite {i : Instr} {f : State → State} {s t : State} (hf : ExecFrame i s (f s))
    (h : hostWrite f s = .next t) : ExecFrame i s t := by
  obtain ⟨-, hw⟩ | ⟨-, hw⟩ := hostWrite_cases f s <;> rw [hw, Host.Outcome.next.injEq] at h <;> subst h
  · exact hf
  · exact (spared_flag _ s).execFrame i

/-- Appending to DBUF, or the overflow's flag, spares the registers (R221). -/
theorem spared_pushDbuf (b : Byte) (s : State) : Spared s (pushDbuf b s) := by
  obtain ⟨-, hp⟩ | ⟨-, hp⟩ := pushDbuf_cases b s <;> rw [hp]
  · exact spared_flag _ s
  · exact .of_eq rfl

/-- Latching the opcode writes REQ_OP alone (R28). -/
theorem latchReqOp_eq (s : State) : latchReqOp s = { s with reqOp := s.dbuf.head?.getD s.reqOp } := by
  obtain ⟨_, dbuf, _⟩ := s
  cases dbuf <;> rfl

/-- The start of XACT, or its refusal, spares the registers (R200, R213). -/
theorem spared_startXact (s : State) : Spared s (startXact s) := by
  unfold startXact
  split
  · exact spared_flag _ s
  · rw [latchReqOp_eq]
    exact .of_eq rfl

/-- Instruction by instruction: only its own operations write each of the registers, and only the clears clear a flag. -/
theorem exec_frame {i : Instr} {s t : State} (h : exec i s = .next t) : ExecFrame i s t := by
  cases i with
  | nop => exact (spared_hostWrite (.refl s) h).execFrame _
  | bufPush b => exact (spared_hostWrite (spared_pushDbuf b s) h).execFrame _
  | xact => exact (spared_hostWrite (spared_startXact s) h).execFrame _
  | bufClr | rptrSet b | frmAck | tpFlush =>
    simp only [exec, execBufClr, execRptrSet, execFrmAck, execTpFlush] at h
    exact (spared_hostWrite (.of_eq rfl) h).execFrame _
  | crcApp =>
    simp only [exec, execCrcApp] at h
    refine (spared_hostWrite ?_ h).execFrame _
    split
    · exact spared_flag _ s
    · exact .of_eq rfl
  | frmEnc =>
    simp only [exec, execFrmEnc, latchReqOp_eq] at h
    exact (spared_hostWrite (.of_eq rfl) h).execFrame _
  | txRaw =>
    simp only [exec, execTxRaw] at h
    refine (spared_hostWrite ?_ h).execFrame _
    split <;> exact .of_eq rfl
  | frmDec =>
    simp only [exec, execFrmDec, enter_pos (show (6 : Byte) ≠ 0 by decide)] at h
    exact (spared_hostWrite (.of_eq rfl) h).execFrame _
  | rbufPop | rd a =>
    simp only [exec, execRbufPop, execRd, Host.Outcome.next.injEq] at h
    subst h
    exact (spared_hostRead _ s).execFrame _
  | getFirmwareVersion p | samConfiguration p | rfConfiguration p | inListPassiveTarget p | inDataExchange p
  | inCommunicateThru p | writeRegister p | tgInitAsTarget p => exact (spared_carry h).execFrame _
  | crcInit | crcBlk | crcUpd b =>
    simp only [exec, execCrcInit, execCrcBlk, execCrcUpd] at h
    exact execFrame_hostWrite
      ⟨rfl, .inr (by simp [WritesCrcAcc]), .inl rfl, .inl rfl, fun _ => .inl, fun _ => .inl⟩ h
  | bufPushc b =>
    simp only [exec, execBufPushc] at h
    refine execFrame_hostWrite ?_ h
    split
    · exact (spared_flag _ s).execFrame _
    · exact ⟨rfl, .inr (by simp [WritesCrcAcc]), .inl rfl, .inl rfl, fun _ => .inl, fun _ => .inl⟩
  | tmoLo b | tmoHi b =>
    simp only [exec, execTmoLo, execTmoHi] at h
    exact execFrame_hostWrite
      ⟨rfl, .inl rfl, .inr (by simp [WritesTimeout]), .inl rfl, fun _ => .inl, fun _ => .inl⟩ h
  | tpReset =>
    simp only [exec, execTpReset] at h
    exact execFrame_hostWrite ⟨rfl, .inl rfl, .inl rfl, .inr rfl, fun _ => .inl, fun _ => .inl⟩ h
  | err0Clr m =>
    simp only [exec, execErr0Clr] at h
    refine execFrame_hostWrite ⟨rfl, .inl rfl, .inl rfl, .inl rfl, fun k hk => ?_, fun _ => .inl⟩ h
    exact (getLsbD_clearFlags hk m).imp id fun hm => .inr ⟨m, hm, rfl⟩
  | err1Clr m =>
    simp only [exec, execErr1Clr] at h
    refine execFrame_hostWrite ⟨rfl, .inl rfl, .inl rfl, .inl rfl, fun _ => .inl, fun k hk => ?_⟩ h
    exact (getLsbD_clearFlags hk m).imp id fun hm => .inr ⟨m, hm, rfl⟩
  | srst =>
    simp only [exec, execSrst, Host.Outcome.next.injEq] at h
    subst h
    exact ⟨rfl, .inr (by simp [WritesCrcAcc]), .inr (.inl rfl), .inl rfl, fun _ _ => .inr (.inl rfl),
      fun _ _ => .inr (.inl rfl)⟩

/-- The host's move is an instruction's execution, or spares the registers. -/
theorem hostMove_frame {s t : State} (h : hostMove s = .next t) :
    Spared s t ∨ ∃ i w rest, s.hostProgram = .word w :: rest ∧ decode w = .ok i ∧ ExecFrame i s t := by
  have hrest (rest : List HostAction) : Spared s { s with hostProgram := rest } := .of_eq rfl
  obtain ⟨-, hm⟩ | ⟨w, rest, hp, hm⟩ | ⟨rest, -, hm⟩ | ⟨rest, -, hm⟩ := hostMove_cases s <;> rw [hm] at h
  · rw [Host.Outcome.next.injEq] at h
    exact .inl (h ▸ .refl s)
  · cases hd : decode w with
    | ok i =>
      rw [perform_ok hd] at h
      exact .inr ⟨i, w, rest, hp, hd, (exec_frame h).after (hrest rest)⟩
    | error r =>
      rw [perform_error hd] at h
      exact .inl ((hrest rest).trans (spared_execRejected h))
  · rw [Host.Outcome.next.injEq] at h
    exact .inl (h ▸ (hrest rest).trans (spared_waitStep _))
  · rw [Host.Outcome.next.injEq] at h
    exact .inl (h ▸ (hrest rest).trans (spared_readRspStep _))

end Sys2Proof.Machine
end

section
/-! PROOF. What the sequencer's step writes, and with the host's move what any step leaves unchanged
(10_state.md R20, R21, R24, R35, R38, R47). -/

namespace Sys2Proof.Machine

open Sys2Proof.Spec

/-! ### The sequencer's inversions, phase by phase -/

/-- `s` with the fields of the header latched from HBUF (R175). -/
def latchHdr (s : State) : State := { s with rxLen := s.hbuf.b3, rxLcs := s.hbuf.b4, rxTfi := s.hbuf.b5 }

/-- The header's completion is an abort, or the payload phase with its running sum (R176 to R181). -/
theorem completeHdr_cases (s : State) :
    (∃ k, completeHdr s = raise k (latchHdr s)) ∨
      (s.hbuf.b3 ≠ 0 ∧ completeHdr s = enter .rdPay (s.hbuf.b3 - 1) { latchHdr s with sum := tfiDevice }) := by
  unfold completeHdr
  dsimp only
  split
  · exact .inl ⟨_, rfl⟩
  split
  · exact .inl ⟨_, rfl⟩
  split
  · exact .inl ⟨_, rfl⟩
  split
  · exact .inl ⟨_, rfl⟩
  · exact .inr ⟨‹_›, rfl⟩

/-- The echo check flags an empty payload, or strips the first byte, flagging an unexpected opcode (R211). -/
theorem echoCheck_cases {s t : State} (h : echoCheck s = .next t) :
    (s.rlen = 0 ∧ t = s.flag .rspCode) ∨
      ∃ op rest u, s.rlen ≠ 0 ∧ s.rbuf = op :: rest ∧ (u = s ∨ u = s.flag .rspCode) ∧
        t = { u with rspOp := op, rbuf := rest, rlen := s.rlen - 1 } := by
  unfold echoCheck at h
  by_cases hl : s.rlen = 0
  · rw [if_pos hl, Host.Outcome.next.injEq] at h
    exact .inl ⟨hl, h.symm⟩
  · rw [if_neg hl] at h
    split at h
    · nomatch h
    · rename_i op rest hb
      rw [Host.Outcome.next.injEq] at h
      refine .inr ⟨op, rest, _, hl, hb, ?_, h.symm⟩
      split
      · exact .inr rfl
      · exact .inl rfl

/-- The end of a successful decode: RLEN, for XACT the echo check, then RESULT = OK and IDLE (R185). -/
theorem finishDecode_cases {s t : State} (h : finishDecode s = .next t) :
    ∃ u, (u = { s with rlen := s.rxLen - 1 } ∨ echoCheck { s with rlen := s.rxLen - 1 } = .next u) ∧
      t = { u with result := .ok, phase := .idle } := by
  unfold finishDecode at h
  dsimp only at h
  split at h
  · generalize echoCheck _ = o at h ⊢
    cases o with
    | next u => exact ⟨u, .inr rfl, by simpa [endOk] using h.symm⟩
    | fault r => nomatch h
    | refused r => nomatch h
  · exact ⟨_, .inl rfl, by simpa [endOk] using h.symm⟩

/-- The step of TX_ACK: the byte, and with the sixth the end of the decode (R185). -/
theorem txAckAdvance_cases {b : Byte} {s t : State} (h : txAckAdvance b s = .next t) :
    (s.txi + 1 ≠ s.txn ∧ t = { txByte b s with txi := s.txi + 1 }) ∨
      (s.txi + 1 = s.txn ∧ finishDecode { txByte b s with txi := s.txi + 1 } = .next t) := by
  unfold txAckAdvance at h
  dsimp only at h
  split at h
  · exact .inr ⟨‹_›, h⟩
  · exact .inl ⟨‹_›, by simpa using h.symm⟩

/-! ### What the sequencer's step writes -/

/-- `s` with every register blanked that the sequencer's steps write, the two queues left. -/
def seqErased (s : State) : State :=
  { s with
    rbuf := [], rlen := 0, rptr := 0, rspOp := 0, phase := .idle, txsel := .frame, txi := 0, txn := 0, cnt := 0, need := 0
    sum := 0, timer := 0, result := .none, err0 := 0, err1 := 0, rxLen := 0, rxLcs := 0, rxTfi := 0, rxDcs := 0
    abortPhase := 0, abortCnt := 0, hbuf := HBuf.reset }

/-- From `s` to `t` only registers that the sequencer's steps write changed, and no flag was cleared. -/
structure SeqKept (s t : State) : Prop where
  frame : seqErased t = seqErased s
  flags : FlagsKept s t

theorem SeqKept.refl (s : State) : SeqKept s s := ⟨rfl, .refl s⟩

theorem SeqKept.trans {s t u : State} (h : SeqKept s t) (h' : SeqKept t u) : SeqKept s u :=
  ⟨h'.frame.trans h.frame, h.flags.trans h'.flags⟩

/-- Among the registers not written are the ones with writers of their own. -/
theorem SeqKept.spared {s t : State} (h : SeqKept s t) : Spared s t where
  rst := (congrArg State.rst h.frame :)
  crcAcc := (congrArg State.crcAcc h.frame :)
  timeout := (congrArg State.timeout h.frame :)
  txq := (congrArg State.txq h.frame :)
  flags := h.flags

theorem seqKept_flag (k : ErrKind) (s : State) : SeqKept s (s.flag k) := ⟨rfl, flagsKept_flag k s⟩

theorem seqKept_raise (k : ErrKind) (s : State) : SeqKept s (raise k s) :=
  ⟨rfl, (flagsKept_flag k s).err0, (flagsKept_flag k s).err1⟩

theorem seqKept_enter (p : Phase) (n : Byte) (s : State) : SeqKept s (enter p n s) := by
  obtain he | ⟨-, -, he⟩ := enter_cases p n s <;> rw [he] <;> exact ⟨rfl, .of_eq rfl rfl⟩

theorem seqKept_storeByte (b : Byte) (s : State) : SeqKept s (storeByte b s) := by
  unfold storeByte
  split <;> exact ⟨rfl, .of_eq rfl rfl⟩

theorem seqKept_completeAck (s : State) : SeqKept s (completeAck s) := by
  refine .trans ?_ (seqKept_enter _ _ _)
  split
  · exact .refl s
  · exact seqKept_flag _ s

theorem seqKept_completeHdr (s : State) : SeqKept s (completeHdr s) := by
  have hl : SeqKept s (latchHdr s) := ⟨rfl, .of_eq rfl rfl⟩
  obtain ⟨k, he⟩ | ⟨-, he⟩ := completeHdr_cases s <;> rw [he]
  · exact hl.trans (seqKept_raise k _)
  · have hs : SeqKept s { latchHdr s with sum := tfiDevice } := ⟨rfl, .of_eq rfl rfl⟩
    exact hs.trans (seqKept_enter _ _ _)

theorem seqKept_completeDcs (b : Byte) (s : State) : SeqKept s (completeDcs b s) := by
  unfold completeDcs
  split
  · exact seqKept_raise _ s
  · exact seqKept_enter _ _ s

theorem seqKept_completePost (b : Byte) (s : State) : SeqKept s (completePost b s) := by
  unfold completePost
  split
  · exact seqKept_raise _ s
  · exact ⟨rfl, .of_eq rfl rfl⟩

theorem seqKept_complete (b : Byte) (s : State) : SeqKept s (complete b s) := by
  unfold complete
  split
  · exact seqKept_completeAck s
  · exact seqKept_completeHdr s
  · exact seqKept_enter _ _ s
  · exact seqKept_completeDcs b s
  · exact seqKept_completePost b s
  all_goals exact .refl s

/-- A receive takes the head of RXQ (R204). -/
theorem seqKept_receiveStep (b : Byte) (rest : List Byte) (s : State) :
    SeqKept { s with rxq := rest } (receiveStep b rest s) := by
  have hs := seqKept_storeByte b s
  have ht : SeqKept { s with rxq := rest } { storeByte b s with rxq := rest, cnt := s.cnt + 1 } :=
    ⟨congrArg (fun u : State => { u with rxq := rest }) hs.frame, hs.flags.err0, hs.flags.err1⟩
  unfold receiveStep
  dsimp only
  split
  · exact ht.trans (seqKept_complete b _)
  · exact ht

theorem seqKept_txCmdAdvance (b : Byte) (s : State) : SeqKept (txByte b s) (txCmdAdvance b s) := by
  have ht : SeqKept (txByte b s) { txByte b s with txi := s.txi + 1, sum := sumAfterTx s b } := ⟨rfl, .of_eq rfl rfl⟩
  unfold txCmdAdvance
  dsimp only
  split
  · split
    · exact ht.trans (seqKept_enter _ _ _)
    · exact ⟨rfl, .of_eq rfl rfl⟩
  · exact ht

theorem seqKept_echoCheck {s t : State} (h : echoCheck s = .next t) : SeqKept s t := by
  obtain ⟨-, rfl⟩ | ⟨op, rest, u, -, -, rfl | rfl, rfl⟩ := echoCheck_cases h
  · exact seqKept_flag _ s
  · exact ⟨rfl, .of_eq rfl rfl⟩
  · exact (seqKept_flag .rspCode s).trans ⟨rfl, .of_eq rfl rfl⟩

theorem seqKept_finishDecode {s t : State} (h : finishDecode s = .next t) : SeqKept s t := by
  have hl : SeqKept s { s with rlen := s.rxLen - 1 } := ⟨rfl, .of_eq rfl rfl⟩
  obtain ⟨u, hu, rfl⟩ := finishDecode_cases h
  have hk : SeqKept s u := by
    obtain rfl | hu := hu
    · exact hl
    · exact hl.trans (seqKept_echoCheck hu)
  exact hk.trans ⟨rfl, .of_eq rfl rfl⟩

theorem seqKept_txAckAdvance {b : Byte} {s t : State} (h : txAckAdvance b s = .next t) : SeqKept (txByte b s) t := by
  obtain ⟨-, rfl⟩ | ⟨-, h⟩ := txAckAdvance_cases h
  · exact ⟨rfl, .of_eq rfl rfl⟩
  · have ht : SeqKept (txByte b s) { txByte b s with txi := s.txi + 1 } := ⟨rfl, .of_eq rfl rfl⟩
    exact ht.trans (seqKept_finishDecode h)

/-- The sequencer's step moves no byte, takes the head of RXQ in a read phase, or gives TXQ the byte that the block offers in
a write phase; otherwise it writes its own registers alone (R21, R46, R47). -/
theorem seqStep_frame {s t : State} (h : seqStep s = .next t) :
    SeqKept s t ∨ (s.phase.isRead = true ∧ ∃ b rest, s.rxq = b :: rest ∧ SeqKept { s with rxq := rest } t) ∨
      ((s.phase = .txCmd ∨ s.phase = .txAck) ∧ ∃ b, s.txData = some b ∧ SeqKept (txByte b s) t) := by
  obtain ⟨-, rfl⟩ | ⟨hp, -, b, hb, rfl⟩ | ⟨hp, -, b, hb, ht⟩ | ⟨hp, -, b, rest, hq, rfl⟩ | ⟨-, -, -, -, rfl⟩ |
    ⟨-, -, rfl⟩ := seqStep_cases h
  · exact .inl (.refl _)
  · exact .inr (.inr ⟨.inl hp, b, hb, seqKept_txCmdAdvance b s⟩)
  · exact .inr (.inr ⟨.inr hp, b, hb, seqKept_txAckAdvance ht⟩)
  · exact .inr (.inl ⟨hp, b, rest, hq, seqKept_receiveStep b rest s⟩)
  · exact .inl (seqKept_raise _ s)
  · exact .inl ⟨rfl, .of_eq rfl rfl⟩

/-! ### The step -/

/-- With `rst` released and not being asserted, a step is the host's move, the sequencer's step, a tick, a peer's move, or a
release of nothing. -/
theorem step_cases {s t : State} (h : step s = .next t) (hr : ¬ byReset s) :
    (nextAgent s = .host ∧ hostMove (beginStep s) = .next t) ∨
    (nextAgent s = .sequencer ∧ seqStep (beginStep s) = .next t) ∨
    (nextAgent s = .timeBase ∧ t = tickStep (beginStep s)) ∨
    (nextAgent s = .peerSend ∧ t = peerSendStep (beginStep s)) ∨
    (nextAgent s = .peerTake ∧ t = peerTakeStep (beginStep s)) ∨
    (nextAgent s = .rstRelease ∧ t = beginStep s) := by
  have hrst : s.rst = false := Bool.eq_false_iff.2 fun h => hr (.inl h)
  cases hn : nextAgent s with
  | host => exact .inl ⟨rfl, by rw [← step_host hrst hn, h]⟩
  | sequencer => exact .inr (.inl ⟨rfl, by rw [← h, step_agent hrst hn (by decide), agentStep]⟩)
  | timeBase =>
    rw [step_agent hrst hn (by decide), agentStep, Host.Outcome.next.injEq] at h
    exact .inr (.inr (.inl ⟨rfl, h.symm⟩))
  | peerSend =>
    rw [step_agent hrst hn (by decide), agentStep, Host.Outcome.next.injEq] at h
    exact .inr (.inr (.inr (.inl ⟨rfl, h.symm⟩)))
  | peerTake =>
    rw [step_agent hrst hn (by decide), agentStep, Host.Outcome.next.injEq] at h
    exact .inr (.inr (.inr (.inr (.inl ⟨rfl, h.symm⟩))))
  | rstAssert => exact absurd (.inr hn) hr
  | rstRelease =>
    rw [step_agent hrst hn (by decide), agentStep, Host.Outcome.next.injEq, rstReleaseStep, beginStep_rst, hrst] at h
    exact .inr (.inr (.inr (.inr (.inr ⟨rfl, h.symm⟩))))

/-- A tick counts TIMER alone (R205). -/
theorem spared_tickStep (s : State) : Spared s (tickStep s) := by
  obtain he | ⟨-, -, he⟩ := tickStep_cases s <;> rw [he]
  · exact .refl s
  · exact .of_eq rfl

/-- The peer's sending step writes RXQ alone of the transport's queues (R46). -/
theorem spared_peerSendStep (s : State) : Spared s (peerSendStep s) := by
  obtain he | ⟨b, rest, -, he⟩ | ⟨b, rest, -, he⟩ := peerSendStep_cases s <;> rw [he]
  · exact .refl s
  all_goals exact .of_eq rfl

/-- The peer's taking step shortens TXQ and writes no register (R47, R73). -/
theorem spared_peerTakeStep (s : State) :
    Spared s (peerTakeStep s) ∨ ∃ b rest, s.txq = b :: rest ∧ Spared { s with txq := rest } (peerTakeStep s) := by
  obtain ⟨-, he⟩ | ⟨b, rest, hq, he⟩ := peerTakeStep_cases s <;> rw [he]
  · exact .inl (.refl s)
  · exact .inr ⟨b, rest, hq, .of_eq rfl⟩

/-- Of the registers with writers of their own a step changes none, unless it is under `rst`, the host's instruction, or a
byte's move: the peer's take, or the sequencer's write of the byte that the block offers. -/
theorem step_frame {s t : State} (h : step s = .next t) :
    byReset s ∨ Spared s t ∨ (∃ i, hostIssues s i ∧ ExecFrame i s t) ∨
      (∃ b rest, s.txq = b :: rest ∧ Spared { s with txq := rest } t) ∨
      (nextAgent s = .sequencer ∧ (s.phase = .txCmd ∨ s.phase = .txAck) ∧
        ∃ b, s.txData = some b ∧ Spared (txByte b s) t) := by
  by_cases hr : byReset s
  · exact .inl hr
  have hbegin : Spared s (beginStep s) := .of_eq rfl
  refine .inr ?_
  obtain ⟨hn, hm⟩ | ⟨hn, hm⟩ | ⟨-, rfl⟩ | ⟨-, rfl⟩ | ⟨-, rfl⟩ | ⟨-, rfl⟩ := step_cases h hr
  · obtain hs | ⟨i, w, rest, hp, hd, he⟩ := hostMove_frame hm
    · exact .inl (hbegin.trans hs)
    · exact .inr (.inl ⟨i, ⟨hn, w, rest, hp, hd⟩, he.after hbegin⟩)
  · obtain hs | ⟨-, b, rest, -, hs⟩ | ⟨hp, b, hb, hs⟩ := seqStep_frame hm
    · exact .inl (hbegin.trans hs.spared)
    · have hq : Spared s { beginStep s with rxq := rest } := .of_eq rfl
      exact .inl (hq.trans hs.spared)
    · have hq : Spared (txByte b s) (txByte b (beginStep s)) := .of_eq rfl
      exact .inr (.inr (.inr ⟨hn, hp, b, hb, hq.trans hs.spared⟩))
  · exact .inl (hbegin.trans (spared_tickStep _))
  · exact .inl (hbegin.trans (spared_peerSendStep _))
  · obtain hs | ⟨b, rest, hq, hs⟩ := spared_peerTakeStep (beginStep s)
    · exact .inl (hbegin.trans hs)
    · have hr : Spared { s with txq := rest } { beginStep s with txq := rest } := .of_eq rfl
      exact .inr (.inr (.inl ⟨b, rest, hq, hr.trans hs⟩))
  · exact .inl hbegin

/-! ### The step under `rst` -/

/-- Every instruction completes (R324). -/
theorem exec_completes (i : Instr) (s : State) : ∃ t, exec i s = .next t := by
  cases i <;> exact ⟨_, rfl⟩

/-- So does the effect of a word that is no operation. -/
theorem execRejected_completes (r : Reject) (s : State) : ∃ t, execRejected r s = .next t := by
  cases r <;> exact ⟨_, rfl⟩

/-- The host's access completes. -/
theorem hostMove_completes (s : State) : ∃ t, hostMove s = .next t := by
  obtain ⟨-, hm⟩ | ⟨w, rest, -, hm⟩ | ⟨rest, -, hm⟩ | ⟨rest, -, hm⟩ := hostMove_cases s <;> rw [hm]
  · exact ⟨_, rfl⟩
  · cases hd : decode w with
    | ok i =>
      rw [perform_ok hd]
      exact exec_completes i _
    | error r =>
      rw [perform_error hd]
      exact execRejected_completes r _
  · exact ⟨_, rfl⟩
  · exact ⟨_, rfl⟩

/-- No access of the host moves the reset input. -/
theorem hostMove_rst {s t : State} (h : hostMove s = .next t) : t.rst = s.rst := by
  obtain hs | ⟨i, w, rest, -, -, he⟩ := hostMove_frame h
  · exact hs.rst
  · exact he.rst

/-- The host's move while `rst` is asserted: its access is made on the reset block and held off the queues (log 15). -/
theorem resetMove_host (s : State) :
    ∃ u : State, u.rst = s.rst ∧ resetMove .host s = .next { u.blockReset with rxq := s.rxq, txq := s.txq } := by
  obtain ⟨u, hu⟩ := hostMove_completes s.blockReset
  exact ⟨u, (hostMove_rst hu :), by rw [resetMove, hu]; rfl⟩

/-- No step under `rst` lengthens TXQ: the host is held off the queues, and of the peer only the take writes TXQ (R22). -/
theorem length_txq_resetMove_le {a : Agent} {s t : State} (h : resetMove a s = .next t) :
    t.txq.length ≤ s.txq.length := by
  cases a with
  | host =>
    obtain ⟨u, -, hu⟩ := resetMove_host s
    rw [hu, Host.Outcome.next.injEq] at h
    exact h ▸ le_rfl
  | sequencer | timeBase | rstAssert =>
    simp only [resetMove, agentStep, Host.Outcome.next.injEq] at h
    exact h ▸ le_rfl
  | rstRelease =>
    simp only [resetMove, agentStep, rstReleaseStep, Host.Outcome.next.injEq] at h
    subst h
    split <;> exact le_rfl
  | peerSend =>
    simp only [resetMove, agentStep, Host.Outcome.next.injEq] at h
    subst h
    exact ((spared_peerSendStep s.blockReset).txq ▸ le_rfl)
  | peerTake =>
    simp only [resetMove, agentStep, Host.Outcome.next.injEq] at h
    subst h
    obtain hs | ⟨b, rest, hq, hs⟩ := spared_peerTakeStep s.blockReset
    · exact (hs.txq ▸ le_rfl)
    · rw [hs.txq, ← blockReset_txq s, hq, List.length_cons]
      exact Nat.le_succ _

theorem length_txq_step_le_of_byReset {s t : State} (hr : byReset s) (h : step s = .next t) :
    t.txq.length ≤ s.txq.length := by
  cases hrst : s.rst with
  | true => exact length_txq_resetMove_le (s := beginStep s) (by rw [← h, step_held hrst])
  | false =>
    have hn : nextAgent s = .rstAssert := hr.resolve_left (by simp [hrst])
    rw [step_agent hrst hn (by decide), agentStep, Host.Outcome.next.injEq] at h
    exact h ▸ le_rfl

/-! ### The writers -/

/-- A step writes CRC_ACC and TIMEOUT and clears flags only under `rst` or in the execution of an instruction. -/
theorem step_writers {s t : State} (h : step s = .next t) :
    byReset s ∨ (t.crcAcc = s.crcAcc ∧ t.timeout = s.timeout ∧ FlagsKept s t) ∨
      ∃ i, hostIssues s i ∧ ExecFrame i s t := by
  obtain hr | hs | hi | ⟨b, rest, -, hs⟩ | ⟨-, -, b, -, hs⟩ := step_frame h
  · exact .inl hr
  · exact .inr (.inl ⟨hs.crcAcc, hs.timeout, hs.flags⟩)
  · exact .inr (.inr hi)
  · exact .inr (.inl ⟨hs.crcAcc, hs.timeout, hs.flags.err0, hs.flags.err1⟩)
  · exact .inr (.inl ⟨hs.crcAcc, hs.timeout, hs.flags.err0, hs.flags.err1⟩)

/-- Settles O52: of the steps outside `rst`, only an instruction's execution can write CRC_ACC. -/
theorem crcAccHasItsWritersOnly : Obligations.CrcAccHasItsWritersOnly := by
  unfold Obligations.CrcAccHasItsWritersOnly
  intro s t h hne
  obtain hr | ⟨hcrc, -, -⟩ | ⟨i, hi, he⟩ := step_writers h
  · exact .inl hr
  · exact absurd hcrc hne
  · exact .inr ⟨i, hi, he.crcAcc.resolve_left hne⟩

/-- Settles O53: of the steps outside `rst`, only an instruction's execution can write TIMEOUT. -/
theorem timeoutHasItsWritersOnly : Obligations.TimeoutHasItsWritersOnly := by
  unfold Obligations.TimeoutHasItsWritersOnly
  intro s t h hne
  obtain hr | ⟨-, htimeout, -⟩ | ⟨i, hi, he⟩ := step_writers h
  · exact .inl hr
  · exact absurd htimeout hne
  · exact .inr ⟨i, hi, he.timeout.resolve_left hne⟩

/-- Settles O54: outside `rst` a step keeps every flag, or executes an instruction, which clears a flag as SRST or as the
clear of its register alone. -/
theorem onlyTheHostClearsFlags : Obligations.OnlyTheHostClearsFlags := by
  unfold Obligations.OnlyTheHostClearsFlags
  intro s t k h
  obtain hr | ⟨-, -, hf⟩ | ⟨i, hi, he⟩ := step_writers h
  · exact ⟨fun _ _ => .inl hr, fun _ _ => .inl hr⟩
  · exact ⟨fun hs ht => absurd (hf.err0 k hs) (by simp [ht]), fun hs ht => absurd (hf.err1 k hs) (by simp [ht])⟩
  · refine ⟨fun hs ht => .inr ?_, fun hs ht => .inr ?_⟩
    · obtain hk | rfl | ⟨m, hm, rfl⟩ := he.err0 k hs
      · exact absurd hk (by simp [ht])
      · exact .inl hi
      · exact .inr ⟨m, hm, hi⟩
    · obtain hk | rfl | ⟨m, hm, rfl⟩ := he.err1 k hs
      · exact absurd hk (by simp [ht])
      · exact .inl hi
      · exact .inr ⟨m, hm, hi⟩

/-- Settles O57: with `rst` released only the sequencer's write of an offered byte lengthens TXQ, and under `rst` no move
does. -/
theorem onlyWritePhasesTransmit : Obligations.OnlyWritePhasesTransmit := by
  unfold Obligations.OnlyWritePhasesTransmit
  intro s t h hlen
  obtain hr | hs | ⟨i, -, he⟩ | ⟨b, rest, hq, hs⟩ | ⟨hn, hp, b, hb, hs⟩ := step_frame h
  · exact absurd (length_txq_step_le_of_byReset hr h) (by omega)
  · rw [hs.txq] at hlen
    omega
  · obtain hq | hq := he.txq <;> rw [hq] at hlen
    · omega
    · simp at hlen
  · rw [hs.txq, hq, List.length_cons] at hlen
    dsimp only at hlen
    omega
  · exact ⟨hn, hp, b, hb, hs.txq⟩

end Sys2Proof.Machine
end

section
/-! PROOF. Reset and SRST (10_state.md R22, R50, R51), the read of RDATA (R42) and the peer's moves (R46, R47). -/

namespace Sys2Proof.Machine

open Sys2Proof.Spec

/-! ### The reset table -/

/-- STATUS of an idle block with no result (R37). -/
theorem status_idle {s : State} (hp : s.phase = .idle) (hr : s.result = .none) : s.status = 0x00 := by
  rw [State.status, State.busy, hp, hr]
  decide

/-- The block as its reset leaves it meets the reset table, whatever the level of `rst`. -/
theorem blockAtReset_blockReset (s : State) (r : Bool) : BlockAtReset { s.blockReset with rst := r } := by
  constructor
  case status => exact status_idle rfl rfl
  all_goals rfl

/-- Settles O1: asserting `rst`, and State.reset, are both the block's reset. -/
theorem resetLeavesTheTable : Obligations.ResetLeavesTheTable := by
  unfold Obligations.ResetLeavesTheTable
  refine ⟨fun s => ⟨rstAssertStep s, rfl, blockAtReset_blockReset s true, ?_⟩, blockAtReset_blockReset State.reset false⟩
  exact ⟨rfl, rfl, rfl, rfl, rfl, rfl, rfl, rfl⟩

/-! ### While `rst` is asserted, and at release -/

/-- Under `rst` every agent's move completes; only the release ends the assertion, and the host moves no queue (R22). -/
theorem resetMove_held (a : Agent) {s : State} (hr : s.rst = true) :
    ∃ t, resetMove a s = .next t ∧ (t.rst = true ↔ a ≠ .rstRelease) ∧ (a = .host → t.rxq = s.rxq ∧ t.txq = s.txq) := by
  cases a with
  | host =>
    obtain ⟨u, hu, he⟩ := resetMove_host s
    exact ⟨_, he, by simp [hu, hr], fun _ => ⟨rfl, rfl⟩⟩
  | sequencer | timeBase | rstAssert => exact ⟨_, rfl, by simp [rstAssertStep, hr], nofun⟩
  | peerSend => exact ⟨_, rfl, by simp [(spared_peerSendStep s.blockReset).rst, hr], nofun⟩
  | peerTake =>
    refine ⟨_, rfl, ?_, nofun⟩
    obtain hs | ⟨b, rest, -, hs⟩ := spared_peerTakeStep s.blockReset <;> simp [hs.rst, hr]
  | rstRelease => exact ⟨_, rfl, by simp [rstReleaseStep, hr], nofun⟩

/-- A step under an asserted `rst`. -/
theorem step_of_rst {s : State} (hr : s.rst = true) :
    ∃ t, step s = .next t ∧ BlockAtReset t ∧ (t.rst = true ↔ nextAgent s ≠ .rstRelease) ∧
      (nextAgent s = .host → t.rxq = s.rxq ∧ t.txq = s.txq) := by
  obtain ⟨t, ht, hrst, hq⟩ := resetMove_held (nextAgent s) (s := beginStep s) hr
  obtain ⟨u, r, rfl⟩ := resetMove_atReset ht
  exact ⟨_, by rw [step_held hr, ht], blockAtReset_blockReset u r, hrst, hq⟩

/-- A step that asserts `rst`, asserted before or not. -/
theorem step_rstAssert {s : State} (hn : nextAgent s = .rstAssert) :
    ∃ t, step s = .next t ∧ BlockAtReset t ∧ t.rst = true ∧ t.rxq = s.rxq ∧ t.txq = s.txq := by
  cases hr : s.rst with
  | true =>
    exact ⟨rstAssertStep (beginStep s).blockReset, by rw [step_held hr, hn, resetMove, agentStep],
      blockAtReset_blockReset _ true, rfl, rfl, rfl⟩
  | false =>
    exact ⟨rstAssertStep (beginStep s), by rw [step_agent hr hn (by decide), agentStep],
      blockAtReset_blockReset _ true, rfl, rfl, rfl⟩

/-- A release of what was not asserted. -/
theorem step_rstRelease_of_released {s : State} (hn : nextAgent s = .rstRelease) (hr : s.rst = false) :
    step s = .next (beginStep s) := by
  rw [step_agent hr hn (by decide), agentStep, rstReleaseStep, beginStep_rst, hr]
  rfl

/-- Settles O2: one clause per step lemma of this section, and SRST's definition. -/
theorem rstHoldsTheBlock : Obligations.RstHoldsTheBlock := by
  unfold Obligations.RstHoldsTheBlock
  exact ⟨fun _ hr => step_of_rst hr, fun _ hn => step_rstAssert hn,
    fun _ hn hr => step_rstRelease_of_released hn hr, fun s => ⟨s.blockReset, rfl, rfl, rfl⟩⟩

/-! ### SRST and the writes turned away -/

/-- A WR word is its address byte and its data byte (R90). -/
theorem wrAddress_append_wrData (w : Word16) : wrAddress w ++ wrData w = w :=
  BitVec.extractLsb'_append_extractLsb' (w := 8) (len := 8)

/-- The instructions that write a register and heed the BUSY rule in that access: all but SRST, the two reads and the
carried commands (R71). -/
def isWrite : Instr → Bool
  | .srst | .rbufPop | .rd _ => false
  | .getFirmwareVersion _ | .samConfiguration _ | .rfConfiguration _ | .inListPassiveTarget _ | .inDataExchange _
  | .inCommunicateThru _ | .writeRegister _ | .tgInitAsTarget _ => false
  | _ => true

/-- While BUSY a register's write is ignored and sets CMD_BUSY (R71). -/
theorem exec_busy {i : Instr} (hi : isWrite i = true) {s : State} (hp : s.phase ≠ .idle) :
    exec i s = .next (s.flag .cmdBusy) := by
  have hb : s.busy = true := busy_eq_true.2 hp
  cases i with
  | srst | rbufPop | rd a | getFirmwareVersion p | samConfiguration p | rfConfiguration p | inListPassiveTarget p
  | inDataExchange p | inCommunicateThru p | writeRegister p | tgInitAsTarget p => nomatch hi
  | _ => exact congrArg Host.Outcome.next (if_pos hb)

/-- Every command but SRST is a register's write (R92). -/
theorem isWrite_of_decodeCmd {d : Byte} {i : Instr} (h : decodeCmd d = .ok i) (hi : i ≠ .srst) : isWrite i = true := by
  unfold decodeCmd at h
  split at h <;> cases h <;> simp [isWrite] at hi ⊢

/-- A WR word that is an operation other than SRST is a register's write (R94). -/
theorem isWrite_of_decodeWrite {a d : Byte} {i : Instr} (h : decodeWrite a d = .ok i) (hi : i ≠ .srst) :
    isWrite i = true := by
  unfold decodeWrite at h
  split at h
  · exact isWrite_of_decodeCmd h hi
  all_goals cases h
  all_goals rfl

/-- SRST has one code (R92). -/
theorem eq_of_decodeCmd_srst {d : Byte} (h : decodeCmd d = .ok .srst) : d = 0x7F := by
  unfold decodeCmd at h
  split at h <;> cases h
  exact BitVec.eq_of_toNat_eq ‹_›

/-- SRST has one word (R90, R92). -/
theorem eq_of_decode_srst {w : Word16} (h : decode (.wr w) = .ok .srst) : w = 0x007F := by
  rw [decode, decodeWrite] at h
  split at h
  · have ha : wrAddress w = 0x00 := BitVec.eq_of_toNat_eq ‹_›
    rw [← wrAddress_append_wrData w, ha, eq_of_decodeCmd_srst h]
    rfl
  all_goals cases h

/-- The only command rejected is an illegal code (R93). -/
theorem decodeCmd_error {d : Byte} {r : Reject} (h : decodeCmd d = .error r) : r = .illegalCmd d := by
  unfold decodeCmd at h
  split at h <;> cases h
  rfl

/-- While BUSY a WR word that is no operation changes nothing or is turned away too (R61, R62, R93). -/
theorem execRejected_decodeWrite_busy {a d : Byte} {r : Reject} {s : State} (h : decodeWrite a d = .error r)
    (hp : s.phase ≠ .idle) : execRejected r s = .next s ∨ execRejected r s = .next (s.flag .cmdBusy) := by
  unfold decodeWrite at h
  split at h
  · exact .inr (decodeCmd_error h ▸ hostWrite_busy _ hp)
  all_goals cases h
  all_goals exact .inl rfl

/-- Settles O3: SRST is the block's reset, and any other WR word is turned away while BUSY. -/
theorem srstResetsTheBlock : Obligations.SrstResetsTheBlock := by
  unfold Obligations.SrstResetsTheBlock
  refine ⟨by decide, fun s => ⟨s.blockReset, rfl, blockAtReset_blockReset s s.rst, ?_⟩, fun s w hp hw => ?_⟩
  · exact ⟨rfl, rfl, rfl, rfl, rfl, rfl, rfl, rfl⟩
  have hflag : s.flag .cmdBusy = { s with err1 := s.err1 ||| 0x04 } := by
    simp [State.flag, ErrKind.mask0, ErrKind.mask1]
  rw [← hflag]
  cases hd : decode (.wr w) with
  | ok i =>
    have hi : i ≠ .srst := fun hi => hw (eq_of_decode_srst (hi ▸ hd))
    exact .inr ((perform_ok hd s).trans (exec_busy (isWrite_of_decodeWrite hd hi) hp))
  | error r =>
    rw [perform_error hd s]
    exact execRejected_decodeWrite_busy hd hp

/-! ### RBUF.POP -/

/-- Settles O11: both cases of the read of RDATA. -/
theorem rbufPopReadsAndAdvances : Obligations.RbufPopReadsAndAdvances := by
  unfold Obligations.RbufPopReadsAndAdvances
  refine ⟨by decide, fun s b hlt hb => ?_, fun s hge => ?_⟩
  · have hpop : popRdata s = { s with regRdata := b, rptr := s.rptr + 1 } := by simp [popRdata, hlt, hb]
    have hptr : byteOf (s.rptr.toNat + 1) = s.rptr + 1 := by simp [byteOf, BitVec.ofNat_add]
    rw [hptr, exec, execRbufPop, hostRead_rdata, hpop]
  · refine ⟨Config.freeByte s.freeIx, s.freeIx + 1, ?_⟩
    rw [exec, execRbufPop, hostRead_rdata, popRdata, if_neg hge]
    simp [State.flag, ErrKind.mask0, ErrKind.mask1]

/-! ### The peer -/

/-- With room in RXQ the peer's next byte joins its tail (R46). -/
theorem peerSendStep_room {s : State} {b : Byte} {rest : List Byte} (hp : s.peerOut = b :: rest)
    (hr : hasRoom s.transport.rxqDepth s.rxq.length = true) :
    peerSendStep s = { s with rxq := s.rxq ++ [b], peerOut := rest } := by
  simp [peerSendStep, hp, hr]

/-- With RXQ full a dropping transport loses the byte (U6). -/
theorem peerSendStep_dropNew {s : State} {b : Byte} {rest : List Byte} (hp : s.peerOut = b :: rest)
    (hr : hasRoom s.transport.rxqDepth s.rxq.length = false) (hf : s.transport.rxFull = .dropNew) :
    peerSendStep s = { s with peerOut := rest } := by
  simp [peerSendStep, hp, hr, hf]

/-- With RXQ full a stalling transport leaves the byte with the peer (U6). -/
theorem peerSendStep_stallPeer {s : State} (hr : hasRoom s.transport.rxqDepth s.rxq.length = false)
    (hf : s.transport.rxFull = .stallPeer) : peerSendStep s = s := by
  unfold peerSendStep
  split
  · rfl
  · simp [hr, hf]

/-- A bounded queue has room exactly below its depth (D28). -/
theorem hasRoom_bounded (k n : Nat) : hasRoom (.bounded k) n = decide (n < k + 1) := by
  simp [hasRoom]

/-- Settles O47: by the room in RXQ and the transport's parameter, and by the head of TXQ. -/
theorem peerMovesBytesInOrder : Obligations.PeerMovesBytesInOrder := by
  unfold Obligations.PeerMovesBytesInOrder
  intro s b rest
  refine ⟨fun hp hd => ?unbounded, fun k hp hd => ⟨fun hl => ?room, fun hl hf => ?drop, fun hl hf => ?stall⟩, fun hq => ?take⟩
  case unbounded => rw [agentStep, peerSendStep_room hp (by rw [hd, hasRoom])]
  case room => rw [agentStep, peerSendStep_room hp (by simpa [hd, hasRoom_bounded] using hl)]
  case drop => rw [agentStep, peerSendStep_dropNew hp (by simpa [hd, hasRoom_bounded] using hl) hf]
  case stall => rw [agentStep, peerSendStep_stallPeer (by simpa [hd, hasRoom_bounded] using hl) hf]
  case take => simp [agentStep, peerTakeStep, hq]

end Sys2Proof.Machine
end

section
/-! PROOF. The invariant of the machine: reset meets it, and every step of every agent keeps it (10_state.md R30 to R43,
42_deframer.md R171 to R185, 43_transaction.md R200 to R211). -/

namespace Sys2Proof.Machine

open Sys2Proof.Spec

/-! ### What the invariant reads -/

/-- `s` with every register blanked that `Decoding` does not read. -/
def decodingView (s : State) : State :=
  { State.reset with
    result := s.result, rlen := s.rlen, rptr := s.rptr, abortPhase := s.abortPhase, abortCnt := s.abortCnt
    opsel := s.opsel, dbuf := s.dbuf, reqOp := s.reqOp }

/-- `s` with every register blanked that no phase's invariant reads, `rst` left. -/
def phaseView (s : State) : State :=
  { s with
    crcAcc := 0, rspOp := 0, timeout := 0, err0 := 0, err1 := 0, rxLcs := 0, rxTfi := 0, rxDcs := 0, hbuf := HBuf.reset
    tpReset := false, regRdata := 0, rxq := [], txq := [], hostProgram := [], peerOut := [], peerIn := []
    schedule := [], freeIx := 0 }

theorem decoding_decodingView (s : State) : Decoding (decodingView s) ↔ Decoding s :=
  ⟨fun ⟨a, b, c, d, e, f⟩ => ⟨a, b, c, d, e, f⟩, fun ⟨a, b, c, d, e, f⟩ => ⟨a, b, c, d, e, f⟩⟩

theorem Decoding.of_view {s t : State} (h : Decoding s) (hv : decodingView t = decodingView s) : Decoding t :=
  (decoding_decodingView t).1 (hv ▸ (decoding_decodingView s).2 h)

theorem decoding_phaseView (s : State) : Decoding (phaseView s) ↔ Decoding s :=
  ⟨fun h => h.of_view rfl, fun h => h.of_view rfl⟩

theorem reading_phaseView (n : Byte) (s : State) : Reading n (phaseView s) ↔ Reading n s :=
  ⟨fun ⟨a, b, c, d⟩ => ⟨a.of_view rfl, b, c, d⟩, fun ⟨a, b, c, d⟩ => ⟨a.of_view rfl, b, c, d⟩⟩

theorem received_phaseView (s : State) : Received (phaseView s) ↔ Received s :=
  ⟨fun ⟨a, b⟩ => ⟨a, b⟩, fun ⟨a, b⟩ => ⟨a, b⟩⟩

theorem writing_phaseView (s : State) : Writing (phaseView s) ↔ Writing s :=
  ⟨fun ⟨a, b, c, d, e⟩ => ⟨a, b, c, d, fun h => (e h).imp_right (And.imp_right (·.of_view rfl))⟩,
    fun ⟨a, b, c, d, e⟩ => ⟨a, b, c, d, fun h => (e h).imp_right (And.imp_right (·.of_view rfl))⟩⟩

theorem phaseInv_phaseView (s : State) : PhaseInv (phaseView s) ↔ PhaseInv s := by
  have hp : (phaseView s).phase = s.phase := rfl
  unfold PhaseInv
  rw [hp]
  cases s.phase with
  | idle | drain => rfl
  | txCmd => exact writing_phaseView s
  | rdAck | rdHdr => exact and_congr (reading_phaseView 6 s) Iff.rfl
  | rdPay => exact and_congr (reading_phaseView _ s) Iff.rfl
  | rdDcs | rdPost => exact and_congr (reading_phaseView 1 s) (received_phaseView s)
  | txAck => exact and_congr (decoding_phaseView s) (and_congr (received_phaseView s) Iff.rfl)

/-- How RESULT, the abort record and the response go together (R39, R202, R290, R338): the part of the invariant that holds
in every phase. -/
structure Results (s : State) : Prop where
  aborted : s.result = .noResp ↔ s.abortPhase ≠ 0
  shown : s.rlen ≠ 0 → s.result = .ok
  whole : s.result = .ok → s.rlen.toNat = s.rbuf.length

/-- The registers that `Results` reads. -/
def resultsView (s : State) : Result × Byte × Byte × List Byte := (s.result, s.abortPhase, s.rlen, s.rbuf)

theorem Results.of_view {s t : State} (h : Results s) (hv : resultsView t = resultsView s) : Results t := by
  simp only [resultsView, Prod.mk.injEq] at hv
  obtain ⟨hr, ha, hl, hb⟩ := hv
  obtain ⟨aborted, shown, whole⟩ := h
  constructor <;> simpa only [hr, ha, hl, hb]

/-- While a decode runs there is no result, no abort record and no response. -/
theorem Decoding.results {s : State} (h : Decoding s) : Results s where
  aborted := by simp [h.noResult, h.noAbort.1]
  shown := by simp [h.noLength]
  whole := by simp [h.noResult]

/-- The invariant of a machine whose `rst` is released, the form of the buffers apart. -/
structure Sound (s : State) : Prop where
  released : s.rst = false
  reserved : s.err1 &&& 0xC0 = 0
  results : Results s
  phase : PhaseInv s

theorem Invariant.sound {s : State} (h : Invariant s) (hr : s.rst = false) : Sound s :=
  ⟨hr, h.reserved, ⟨h.aborted, h.shown, h.whole⟩, h.phase⟩

theorem Sound.invariant {s : State} (h : Sound s) (hb : Memory.wf s = true) : Invariant s :=
  ⟨hb, h.reserved, h.results.aborted, h.results.shown, h.results.whole, h.phase, fun hr => nomatch h.released.symm.trans hr⟩

/-- The block as its reset leaves it meets the invariant, whatever the level of `rst` (R50, R22). -/
theorem invariant_blockReset (s : State) (r : Bool) : Invariant { s.blockReset with rst := r } where
  buffers := rfl
  reserved := BitVec.zero_and
  aborted := ⟨nofun, fun h => absurd rfl h⟩
  shown h := absurd rfl h
  whole := nofun
  phase := trivial
  held _ := rfl

/-- Settles O49: State.reset and the state at power-up are the block as its reset leaves it. -/
theorem resetMeetsTheInvariant : Obligations.ResetMeetsTheInvariant := by
  unfold Obligations.ResetMeetsTheInvariant
  exact ⟨invariant_blockReset State.reset false, fun tr rx tx => invariant_blockReset (State.powerUp tr rx tx) false⟩

/-! ### Rules for keeping it -/

/-- Setting a flag leaves the reserved bits of ERR1 (R38, R282). -/
theorem reserved_flag (k : ErrKind) {s : State} (h : s.err1 &&& 0xC0 = 0) : (s.flag k).err1 &&& 0xC0 = 0 := by
  have hk : k.mask1 &&& 0xC0 = 0 := by cases k <;> rfl
  rw [flag_err1, BitVec.and_or_distrib_right, h, hk]
  rfl

/-- So does the host's clear (R296). -/
theorem reserved_clearFlags {flags : Byte} (h : flags &&& 0xC0 = 0) (m : Byte) : clearFlags flags m &&& 0xC0 = 0 := by
  calc flags &&& ~~~m &&& 0xC0 = flags &&& 0xC0 &&& ~~~m := by ac_rfl
    _ = 0 := by rw [h]; exact BitVec.zero_and

/-- A change outside what the phases' invariants read. -/
theorem Sound.of_view {s t : State} (h : Sound s) (hv : phaseView t = phaseView s) (he : t.err1 &&& 0xC0 = 0) : Sound t where
  released := (congrArg State.rst hv :).trans h.released
  reserved := he
  results := h.results.of_view (congrArg resultsView hv :)
  phase := (phaseInv_phaseView t).1 (hv ▸ (phaseInv_phaseView s).2 h.phase)

theorem Sound.flag {s : State} (h : Sound s) (k : ErrKind) : Sound (s.flag k) := h.of_view rfl (reserved_flag k h.reserved)

/-- A change that leaves the block idle. -/
theorem Sound.of_idle {s t : State} (h : Sound s) (hp : t.phase = .idle) (hr : t.rst = s.rst) (he : t.err1 &&& 0xC0 = 0)
    (hv : resultsView t = resultsView s) : Sound t :=
  ⟨hr.trans h.released, he, h.results.of_view hv, by rw [PhaseInv, hp]; trivial⟩

/-- A decode under way between two phases: what the next phase, or the abort, needs of the state. -/
structure Underway (s : State) : Prop where
  released : s.rst = false
  reserved : s.err1 &&& 0xC0 = 0
  decoding : Decoding s

theorem Underway.of_view {s t : State} (h : Underway s) (hv : decodingView t = decodingView s) (hr : t.rst = s.rst)
    (he : t.err1 = s.err1) : Underway t :=
  ⟨hr.trans h.released, he ▸ h.reserved, h.decoding.of_view hv⟩

theorem Underway.flag {s : State} (h : Underway s) (k : ErrKind) : Underway (s.flag k) :=
  ⟨h.released, reserved_flag k h.reserved, h.decoding.of_view rfl⟩

theorem Underway.sound {s : State} (h : Underway s) (hp : PhaseInv s) : Sound s :=
  ⟨h.released, h.reserved, h.decoding.results, hp⟩

/-- In a read phase and in TX_ACK a decode is under way. -/
theorem Sound.underway {s : State} (h : Sound s) (hp : s.phase.isRead = true ∨ s.phase = .txAck) : Underway s := by
  refine ⟨h.released, h.reserved, ?_⟩
  have hi := h.phase
  unfold PhaseInv at hi
  cases hs : s.phase <;> simp only [hs, Phase.isRead] at hi hp
  case rdAck | rdHdr | rdPay | rdDcs | rdPost => exact hi.1.decoding
  case txAck => exact hi.1
  all_goals simp at hp

/-- An abort of a read phase records that phase, whose code is not 0 (R290). -/
theorem Underway.raise {s : State} (h : Underway s) (hp : s.phase.isRead = true) (k : ErrKind) : Sound (raise k s) where
  released := h.released
  reserved := reserved_flag k h.reserved
  results := by
    refine ⟨?_, nofun, nofun⟩
    rw [raise_result, raise_abortPhase]
    cases hs : s.phase <;> simp [hs, Phase.isRead, Phase.code] at hp ⊢
  phase := trivial

/-- Entering a read phase of `n > 0` bytes starts the reading of them (R203). -/
theorem Underway.reading_loadPhase {s : State} (h : Underway s) (p : Phase) {n : Byte} (hn : n ≠ 0) :
    Reading n (loadPhase p n s) where
  decoding := h.decoding.of_view rfl
  needs := rfl
  counts := (BitVec.pos_iff_ne_zero n).2 hn
  deadline := BitVec.le_refl _

/-- Entering RD_ACK or RD_HDR, RBUF empty (R171, R175). -/
theorem Underway.enter_six {s : State} (h : Underway s) (hb : s.rbuf = []) {p : Phase} (hp : p = .rdAck ∨ p = .rdHdr) :
    Sound (enter p 6 s) := by
  rw [enter_pos (by decide)]
  refine Underway.sound (h.of_view rfl rfl rfl) ?_
  obtain rfl | rfl := hp <;> exact ⟨h.reading_loadPhase _ (by decide), hb⟩

/-- Entering RD_DCS or RD_POST, the payload received (R182, R183). -/
theorem Underway.enter_one {s : State} (h : Underway s) (hr : Received s) {p : Phase} (hp : p = .rdDcs ∨ p = .rdPost) :
    Sound (enter p 1 s) := by
  rw [enter_pos (by decide)]
  refine Underway.sound (h.of_view rfl rfl rfl) ?_
  obtain rfl | rfl := hp <;> exact ⟨h.reading_loadPhase _ (by decide), hr.length, hr.running⟩

/-- Entering RD_PAY with nothing received; an empty payload is received at once (R181, R182). -/
theorem Underway.enter_rdPay {s : State} (h : Underway s) (hn : s.rxLen ≠ 0) (hb : s.rbuf = []) (hs : s.sum = tfiDevice) :
    Sound (enter .rdPay (s.rxLen - 1) s) := by
  by_cases hz : s.rxLen - 1 = 0
  · have hl : s.rxLen = 1 := by bv_omega
    rw [hz, enter_rdPay_zero, ← enter_pos (by decide)]
    refine Underway.enter_one (h.of_view rfl rfl rfl) ⟨?_, ?_⟩ (.inl rfl)
    · simp [hb, hl]
    · simp [hb, hs]
  · rw [enter_pos hz]
    refine Underway.sound (h.of_view rfl rfl rfl) ⟨h.reading_loadPhase _ hz, hn, ?_, ?_⟩
    · simp [hb]
    · simp [hb, hs]

end Sys2Proof.Machine
end

section
/-! PROOF. The sequencer's step keeps the invariant: read phase by read phase, and the two write phases
(42_deframer.md R172 to R185, 41_framer.md R152, 43_transaction.md R200, R211). -/

namespace Sys2Proof.Machine

/-! ### The receive step -/

/-- `s` with the byte `b` stored and counted, as the receive step leaves it before it looks for the phase's end (R204). -/
def stored (b : Byte) (rest : List Byte) (s : State) : State := { storeByte b s with rxq := rest, cnt := s.cnt + 1 }

theorem receiveStep_eq (b : Byte) (rest : List Byte) (s : State) :
    receiveStep b rest s =
      if (stored b rest s).cnt = (stored b rest s).need then complete b (stored b rest s) else stored b rest s := rfl

/-- A receive writes HBUF, RBUF, SUM, RX_DCS, CNT and takes from RXQ, and nothing else. -/
theorem stored_frame (b : Byte) (rest : List Byte) (s : State) :
    stored b rest s = { s with
      hbuf := (stored b rest s).hbuf, rbuf := (stored b rest s).rbuf, sum := (stored b rest s).sum
      rxDcs := (stored b rest s).rxDcs, rxq := rest, cnt := s.cnt + 1 } := by
  unfold stored storeByte
  split <;> rfl

@[simp] theorem stored_phase (b : Byte) (rest : List Byte) (s : State) : (stored b rest s).phase = s.phase :=
  (congrArg State.phase (stored_frame b rest s) :)

@[simp] theorem stored_need (b : Byte) (rest : List Byte) (s : State) : (stored b rest s).need = s.need :=
  (congrArg State.need (stored_frame b rest s) :)

@[simp] theorem stored_rxLen (b : Byte) (rest : List Byte) (s : State) : (stored b rest s).rxLen = s.rxLen :=
  (congrArg State.rxLen (stored_frame b rest s) :)

@[simp] theorem stored_cnt (b : Byte) (rest : List Byte) (s : State) : (stored b rest s).cnt = s.cnt + 1 := rfl

/-- Outside RD_PAY the payload and its sum stay. -/
theorem stored_payload {s : State} (hp : s.phase ≠ .rdPay) (b : Byte) (rest : List Byte) :
    (stored b rest s).rbuf = s.rbuf ∧ (stored b rest s).sum = s.sum := by
  cases hs : s.phase with
  | rdPay => exact absurd hs hp
  | _ => simp [stored, storeByte, hs]

/-- In RD_PAY the byte extends the payload and its sum (R182). -/
theorem stored_rdPay {s : State} (hp : s.phase = .rdPay) (hl : s.rbuf.length = s.cnt.toNat) (hc : s.cnt.toNat < 254)
    (b : Byte) (rest : List Byte) : (stored b rest s).rbuf = s.rbuf ++ [b] ∧ (stored b rest s).sum = s.sum + b := by
  have hw : bufferWrite s.rbuf s.cnt.toNat b = s.rbuf ++ [b] := by
    rw [← hl]
    exact bufferWrite_length s.rbuf b (by omega)
  simp [stored, storeByte, hp, hw]

theorem Underway.stored {s : State} (h : Underway s) (b : Byte) (rest : List Byte) : Underway (stored b rest s) :=
  h.of_view (congrArg decodingView (stored_frame b rest s) :) (congrArg State.rst (stored_frame b rest s) :)
    (congrArg State.err1 (stored_frame b rest s) :)

/-- The payload received stays received outside RD_PAY. -/
theorem Received.stored {s : State} (h : Received s) (hp : s.phase ≠ .rdPay) (b : Byte) (rest : List Byte) :
    Received (stored b rest s) := by
  obtain ⟨hb, hs⟩ := stored_payload hp b rest
  exact ⟨by rw [hb, stored_rxLen, h.length], by rw [hb, hs, h.running]⟩

/-- A byte before the last keeps the reading going (R204). -/
theorem Reading.stored {n : Byte} {s : State} (h : Reading n s) (b : Byte) (rest : List Byte) (hne : s.cnt + 1 ≠ s.need) :
    Reading n (stored b rest s) where
  decoding := h.decoding.of_view (congrArg decodingView (stored_frame b rest s) :)
  needs := by rw [stored_need, h.needs]
  counts := by
    have hc := h.counts
    rw [stored_need, stored_cnt]
    bv_omega
  deadline := (congrArg (fun t : State => t.timer ≤ t.tlatch) (stored_frame b rest s) :).mpr h.deadline

/-! ### The invariant of each phase -/

theorem phaseInv_txCmd {s : State} (hp : s.phase = .txCmd) : PhaseInv s ↔ Writing s := by
  rw [PhaseInv, hp]

theorem phaseInv_header {s : State} (hp : s.phase = .rdAck ∨ s.phase = .rdHdr) : PhaseInv s ↔ Reading 6 s ∧ s.rbuf = [] := by
  obtain hp | hp := hp <;> rw [PhaseInv, hp]

theorem phaseInv_rdPay {s : State} (hp : s.phase = .rdPay) : PhaseInv s ↔
    Reading (s.rxLen - 1) s ∧ s.rxLen ≠ 0 ∧ s.rbuf.length = s.cnt.toNat ∧ s.sum = tfiDevice + s.rbuf.sum := by
  rw [PhaseInv, hp]

theorem phaseInv_trailer {s : State} (hp : s.phase = .rdDcs ∨ s.phase = .rdPost) :
    PhaseInv s ↔ Reading 1 s ∧ Received s := by
  obtain hp | hp := hp <;> rw [PhaseInv, hp]

theorem phaseInv_txAck {s : State} (hp : s.phase = .txAck) :
    PhaseInv s ↔ Decoding s ∧ Received s ∧ s.txi < 6 ∧ s.txn = 6 := by
  rw [PhaseInv, hp]

/-- The five read phases, by what their invariants say. -/
theorem isRead_cases {p : Phase} (h : p.isRead = true) :
    (p = .rdAck ∨ p = .rdHdr) ∨ p = .rdPay ∨ (p = .rdDcs ∨ p = .rdPost) := by
  cases p <;> simp [Phase.isRead] at h ⊢

/-- The payload's sum, one byte later (R182). -/
theorem sum_append_byte (tfi b : Byte) (l : List Byte) : tfi + (l ++ [b]).sum = tfi + l.sum + b := by
  simp [BitVec.add_assoc]

/-- A byte before the last of its phase keeps the phase's invariant. -/
theorem PhaseInv.stored {s : State} (h : PhaseInv s) (hp : s.phase.isRead = true) (b : Byte) (rest : List Byte)
    (hne : s.cnt + 1 ≠ s.need) : PhaseInv (stored b rest s) := by
  obtain hp | hp | hp := isRead_cases hp
  · rw [phaseInv_header hp] at h
    rw [phaseInv_header (by simpa using hp)]
    have hq : s.phase ≠ .rdPay := by obtain hp | hp := hp <;> simp [hp]
    exact ⟨h.1.stored b rest hne, (stored_payload hq b rest).1.trans h.2⟩
  · rw [phaseInv_rdPay hp] at h
    rw [phaseInv_rdPay (by simpa using hp)]
    obtain ⟨hr, hz, hl, hs⟩ := h
    have hc := hr.counts
    have hn := hr.needs
    obtain ⟨hb, hsum⟩ := stored_rdPay hp hl (by bv_omega) b rest
    rw [hb, hsum, stored_rxLen, stored_cnt]
    refine ⟨hr.stored b rest hne, hz, ?_, ?_⟩
    · rw [List.length_append, hl, List.length_singleton]
      bv_omega
    · rw [sum_append_byte, hs]
  · rw [phaseInv_trailer hp] at h
    rw [phaseInv_trailer (by simpa using hp)]
    have hq : s.phase ≠ .rdPay := by obtain hp | hp := hp <;> simp [hp]
    exact ⟨h.1.stored b rest hne, h.2.stored hq b rest⟩

/-- The last byte of RD_PAY completes the payload. -/
theorem received_of_rdPay {s : State} (h : PhaseInv s) (hp : s.phase = .rdPay) (b : Byte) (rest : List Byte)
    (hlast : s.cnt + 1 = s.need) : Received (stored b rest s) := by
  rw [phaseInv_rdPay hp] at h
  obtain ⟨hr, hz, hl, hs⟩ := h
  have hc := hr.counts
  have hn := hr.needs
  obtain ⟨hb, hsum⟩ := stored_rdPay hp hl (by bv_omega) b rest
  constructor
  · rw [hb, stored_rxLen, List.length_append, hl, List.length_singleton]
    bv_omega
  · rw [hb, hsum, sum_append_byte, hs]

/-- Completing a read phase whose bytes are all in (R172, R175 to R184). -/
theorem Underway.complete {s : State} (h : Underway s) (hp : s.phase.isRead = true) (b : Byte)
    (hempty : s.phase = .rdAck ∨ s.phase = .rdHdr → s.rbuf = [])
    (hreceived : s.phase = .rdPay ∨ s.phase = .rdDcs ∨ s.phase = .rdPost → Received s) : Sound (complete b s) := by
  cases hs : s.phase with
  | rdAck =>
    simp only [Machine.complete, completeAck, hs]
    split
    · exact h.enter_six (hempty (.inl hs)) (.inr rfl)
    · exact (h.flag _).enter_six (hempty (.inl hs)) (.inr rfl)
  | rdHdr =>
    simp only [Machine.complete, hs]
    obtain ⟨k, he⟩ | ⟨hz, he⟩ := completeHdr_cases s <;> rw [he]
    · have hl : Underway (latchHdr s) := h.of_view rfl rfl rfl
      exact hl.raise hp k
    · exact Underway.enter_rdPay (s := { latchHdr s with sum := tfiDevice }) (h.of_view rfl rfl rfl) hz
        (hempty (.inr hs)) rfl
  | rdPay =>
    simp only [Machine.complete, hs]
    exact h.enter_one (hreceived (.inl hs)) (.inl rfl)
  | rdDcs =>
    simp only [Machine.complete, completeDcs, hs]
    split
    · exact h.raise hp _
    · exact h.enter_one (hreceived (.inr (.inl hs))) (.inr rfl)
  | rdPost =>
    obtain ⟨hlength, hrunning⟩ := hreceived (.inr (.inr hs))
    simp only [Machine.complete, completePost, hs]
    split
    · exact h.raise hp _
    · exact Underway.sound (h.of_view rfl rfl rfl)
        ⟨h.decoding.of_view rfl, ⟨hlength, hrunning⟩, (by decide : (0 : BitVec 9) < 6), rfl⟩
  | idle | txCmd | txAck | drain => simp [hs, Phase.isRead] at hp

/-- The receive step keeps the invariant. -/
theorem Sound.receiveStep {s : State} (h : Sound s) (hp : s.phase.isRead = true) (b : Byte) (rest : List Byte) :
    Sound (receiveStep b rest s) := by
  have hu : Underway (stored b rest s) := (h.underway (.inl hp)).stored b rest
  rw [receiveStep_eq, stored_cnt, stored_need]
  split
  next hlast =>
    refine hu.complete (by rw [stored_phase, hp]) b (fun ha => ?_) (fun ha => ?_) <;> rw [stored_phase] at ha
    · have hq : s.phase ≠ .rdPay := by obtain ha | ha := ha <;> simp [ha]
      exact (stored_payload hq b rest).1.trans ((phaseInv_header ha).1 h.phase).2
    · obtain ha | ha := ha
      · exact received_of_rdPay h.phase ha b rest hlast
      · have hq : s.phase ≠ .rdPay := by obtain ha | ha := ha <;> simp [ha]
        exact ((phaseInv_trailer ha).1 h.phase).2.stored hq b rest
  next hne => exact hu.sound (h.phase.stored hp b rest hne)

/-! ### The write phases -/

/-- The bytes of a frame from index 6 on are the data bytes (R95, R151). -/
theorem encodeFrame_getElem?_data (data : List Byte) {k : Nat} (hk : k < data.length) :
    (encodeFrame data)[6 + k]? = data[k]? := by
  have hsplit : encodeFrame data = [0x00, 0x00, 0xFF, frameLen data, frameLcs data, tfiHost] ++
      (data ++ [frameDcs tfiHost data, 0x00]) := List.append_assoc ..
  rw [hsplit, List.getElem?_append_right (by simp), List.getElem?_append_left (by simpa using hk)]
  simp

/-- The byte that a write of the frame offers is the frame's (R152). -/
theorem txData_frame {s : State} {b : Byte} (hp : s.phase = .txCmd) (hs : s.txsel = .frame) (hb : s.txData = some b) :
    (encodeFrame s.dbuf)[s.txi.toNat]? = some b := by
  by_cases hl : s.dbuf.length ≤ bufferCapacity
  · simpa [State.txData, State.txValid, State.txBytes, hp, hs, hl] using hb
  · simp [State.txData, State.txBytes, hp, hs, hl] at hb

/-- SUM runs over the data bytes written (R34, log 17). -/
theorem sumAfterTx_frame {s : State} {b : Byte} (hs : s.txsel = .frame)
    (hb : (encodeFrame s.dbuf)[s.txi.toNat]? = some b) (hsum : s.sum = tfiHost + (s.dbuf.take (s.txi.toNat - 6)).sum) :
    sumAfterTx s b = tfiHost + (s.dbuf.take (s.txi.toNat + 1 - 6)).sum := by
  unfold sumAfterTx
  by_cases hlow : s.txi.toNat < 6
  · rw [if_neg (by omega), hsum, show s.txi.toNat + 1 - 6 = 0 by omega, show s.txi.toNat - 6 = 0 by omega]
  by_cases hhigh : s.txi.toNat < 6 + s.dbuf.length
  · obtain ⟨k, hk⟩ : ∃ k, s.txi.toNat = 6 + k := ⟨s.txi.toNat - 6, by omega⟩
    rw [hk, encodeFrame_getElem?_data s.dbuf (by omega)] at hb
    rw [if_pos ⟨hs, by omega, hhigh⟩, hsum, hk, show 6 + k + 1 - 6 = k + 1 by omega, show 6 + k - 6 = k by omega,
      List.take_add_one, hb, Option.toList_some, sum_append_byte]
  · rw [if_neg (by omega), hsum, List.take_of_length_le (by omega), List.take_of_length_le (by omega)]

/-- A byte before the last keeps the write of TX_CMD going (R152). -/
theorem Writing.next {s : State} {b : Byte} (h : Writing s) (hp : s.phase = .txCmd) (hb : s.txData = some b)
    (hne : s.txi + 1 ≠ s.txn) : Writing { txByte b s with txi := s.txi + 1, sum := sumAfterTx s b } where
  index := by
    have hi := h.index
    dsimp only [txByte_txn]
    bv_omega
  count := h.count
  operation := h.operation
  running hs := by
    have hi := h.index
    have htoNat : (s.txi + 1).toNat = s.txi.toNat + 1 := by bv_omega
    dsimp only
    rw [htoNat]
    exact sumAfterTx_frame hs (txData_frame hp hs hb) (h.running hs)
  transaction hx := (h.transaction hx).imp_right (And.imp_right (·.of_view rfl))

/-- The step of TX_CMD keeps the invariant (R152, R200). -/
theorem Sound.txCmdAdvance {s : State} (h : Sound s) (hp : s.phase = .txCmd) {b : Byte} (hb : s.txData = some b) :
    Sound (txCmdAdvance b s) := by
  have hw : Writing s := (phaseInv_txCmd hp).1 h.phase
  unfold Sys2Proof.Machine.txCmdAdvance
  dsimp only
  split
  next hlast =>
    split
    next hx =>
      obtain ⟨-, hr, hd⟩ := hw.transaction hx
      exact Underway.enter_six (s := { txByte b s with txi := s.txi + 1, sum := sumAfterTx s b })
        ⟨h.released, h.reserved, hd.of_view rfl⟩ hr (.inl rfl)
    next => exact h.of_idle rfl rfl h.reserved rfl
  next hne =>
    exact ⟨h.released, h.reserved, h.results.of_view rfl, (phaseInv_txCmd (by exact hp)).2 (hw.next hp hb hne)⟩

/-- A decode that has got its response: what RESULT = OK will need of the state (R185, R202). -/
structure Answered (s : State) : Prop where
  released : s.rst = false
  reserved : s.err1 &&& 0xC0 = 0
  noAbort : s.abortPhase = 0
  whole : s.rlen.toNat = s.rbuf.length

/-- The echo check strips a byte from the response and from its length (R211). -/
theorem Answered.echoCheck {s t : State} (h : Answered s) (ht : echoCheck s = .next t) : Answered t := by
  obtain ⟨-, rfl⟩ | ⟨op, rest, u, hl, hb, hu, rfl⟩ := echoCheck_cases ht
  · exact ⟨h.released, reserved_flag _ h.reserved, h.noAbort, h.whole⟩
  · have hw : (s.rlen - 1).toNat = rest.length := by
      have := h.whole
      rw [hb, List.length_cons] at this
      bv_omega
    obtain rfl | rfl := hu
    · exact ⟨h.released, h.reserved, h.noAbort, hw⟩
    · exact ⟨h.released, reserved_flag _ h.reserved, h.noAbort, hw⟩

/-- RESULT = OK with the response shown (R185, R202). -/
theorem Answered.sound_ok {s : State} (h : Answered s) : Sound { s with result := .ok, phase := .idle } where
  released := h.released
  reserved := h.reserved
  results := ⟨⟨nofun, fun ha => absurd h.noAbort ha⟩, fun _ => rfl, fun _ => h.whole⟩
  phase := trivial

/-- The end of a decode whose payload has been received (R185). -/
theorem sound_finishDecode {s t : State} (hu : Underway s) (hr : Received s) (ht : finishDecode s = .next t) : Sound t := by
  have ha : Answered { s with rlen := s.rxLen - 1 } := by
    refine ⟨hu.released, hu.reserved, hu.decoding.noAbort.1, ?_⟩
    have := hr.length
    bv_omega
  obtain ⟨u, rfl | hu, rfl⟩ := finishDecode_cases ht
  · exact ha.sound_ok
  · exact (ha.echoCheck hu).sound_ok

/-- The step of TX_ACK keeps the invariant (R185). -/
theorem Sound.txAckAdvance {s t : State} (h : Sound s) (hp : s.phase = .txAck) {b : Byte}
    (ht : txAckAdvance b s = .next t) : Sound t := by
  obtain ⟨hd, hr, hi, hn⟩ := (phaseInv_txAck hp).1 h.phase
  have hu : Underway { txByte b s with txi := s.txi + 1 } := ⟨h.released, h.reserved, hd.of_view rfl⟩
  have hr' : Received { txByte b s with txi := s.txi + 1 } := ⟨hr.length, hr.running⟩
  obtain ⟨hne, rfl⟩ | ⟨-, hf⟩ := txAckAdvance_cases ht
  · refine hu.sound ((phaseInv_txAck (by exact hp)).2 ⟨hu.decoding, hr', ?_, hn⟩)
    dsimp only
    bv_omega
  · exact sound_finishDecode hu hr' hf

/-- Every step of the sequencer keeps the invariant. -/
theorem Sound.seqStep {s t : State} (h : Sound s) (ht : seqStep s = .next t) : Sound t := by
  obtain ⟨-, rfl⟩ | ⟨hp, -, b, hb, rfl⟩ | ⟨hp, -, b, hb, ha⟩ | ⟨hp, -, b, rest, -, rfl⟩ | ⟨hp, -, -, -, rfl⟩ |
    ⟨-, -, rfl⟩ := seqStep_cases ht
  · exact h
  · exact h.txCmdAdvance hp hb
  · exact h.txAckAdvance hp ha
  · exact h.receiveStep hp b rest
  · exact (h.underway (.inl hp)).raise hp .timeout
  · exact h.of_idle rfl rfl h.reserved rfl

end Sys2Proof.Machine
end

section
/-! PROOF. The host's accesses, the ticks and the peer's moves keep the invariant, and with them every step
(10_state.md R15, R20, R22). -/

namespace Sys2Proof.Machine

open Sys2Proof.Spec

/-! ### The host's accesses -/

/-- A host write keeps the invariant if its effect on an idle block does (R71). -/
theorem Sound.hostWrite {f : State → State} {s t : State} (h : Sound s) (hf : s.phase = .idle → Sound (f s))
    (ht : hostWrite f s = .next t) : Sound t := by
  obtain ⟨hp, hw⟩ | ⟨-, hw⟩ := hostWrite_cases f s <;> rw [hw, Host.Outcome.next.injEq] at ht <;> subst ht
  · exact hf hp
  · exact h.flag _

/-- A byte is popped only from a response shown, which no running decode has: RPTR may then move (R42, R202). -/
theorem Sound.pop {s : State} (h : Sound s) (hl : s.rlen ≠ 0) (b i : Byte) :
    Sound { s with regRdata := b, rptr := i } := by
  refine ⟨h.released, h.reserved, h.results.of_view rfl, ?_⟩
  have hd (hd : Decoding s) : False := hl hd.noLength
  have hi := h.phase
  unfold PhaseInv at hi ⊢
  dsimp only
  cases hp : s.phase <;> simp only [hp] at hi
  case idle => trivial
  case drain => exact hi
  case txCmd => exact ⟨hi.index, hi.count, hi.operation, hi.running, fun hx => (hd (hi.transaction hx).2.2).elim⟩
  case txAck => exact (hd hi.1).elim
  all_goals exact (hd hi.1.decoding).elim

/-- Every read keeps the invariant. -/
theorem Sound.hostRead {s : State} (h : Sound s) (a : Byte) : Sound (hostRead a s) := by
  by_cases ha : a = 0x0E
  · subst ha
    rw [hostRead_rdata]
    obtain ⟨hl, hp⟩ | ⟨-, hp⟩ := popRdata_cases s <;> rw [hp]
    · exact h.pop (by bv_omega) _ _
    · exact h.of_view rfl (reserved_flag .rbufUnderrun h.reserved)
  · rw [hostRead_register ha]
    exact h.of_view rfl h.reserved

/-- A 9-bit count of at most 262 bytes is that number (R32). -/
theorem toNat_ofNat_nine {n : Nat} (h : n ≤ 262) : (BitVec.ofNat 9 n).toNat = n := by
  rw [BitVec.toNat_ofNat]
  omega

theorem zero_lt_ofNat_nine {n : Nat} (h : n ≤ 262) (hn : 0 < n) : 0 < BitVec.ofNat 9 n := by
  rw [BitVec.lt_def, toNat_ofNat_nine h]
  exact hn

/-- The number of bytes of each sequence that TX_CMD writes (R31, R32). -/
def txLength (s : State) : TxSel → Nat
  | .frame => s.dbuf.length + 8
  | .ack   => 6
  | .raw   => s.dbuf.length

/-- The start of a transmit-only write phase (R152, R153, R154). -/
theorem Sound.startTx {s : State} (h : Sound s) (hb : s.dbuf.length ≤ 254) (sel : TxSel) (hn : 0 < txLength s sel)
    {sum : Byte} (hsum : sel = .frame → sum = tfiHost) :
    Sound { startTx .transmit sel (txLength s sel) s with sum := sum } := by
  have hle : txLength s sel ≤ 262 := by cases sel <;> simp only [txLength] <;> omega
  refine ⟨h.released, h.reserved, h.results.of_view rfl,
    (phaseInv_txCmd (by exact rfl)).2 ⟨zero_lt_ofNat_nine hle hn, ?_, nofun, fun hs => ?_, nofun⟩⟩
  · cases sel <;> exact toNat_ofNat_nine hle
  · simpa using hsum hs

/-- The start of XACT, or its refusal (R200, R213). -/
theorem Sound.startXact {s : State} (h : Sound s) (hb : s.dbuf.length ≤ 254) : Sound (startXact s) := by
  unfold Sys2Proof.Machine.startXact
  split
  · exact h.flag _
  next hne =>
    have hle : s.dbuf.length + 8 ≤ 262 := by omega
    obtain ⟨op, payload, hd⟩ := List.exists_cons_of_ne_nil hne
    rw [latchReqOp_eq]
    have hdec : Decoding (clearForDecode { s with reqOp := s.dbuf.head?.getD s.reqOp, opsel := .xact }) :=
      ⟨rfl, rfl, rfl, ⟨rfl, rfl⟩, nofun, fun _ => by simp [hd]⟩
    refine Underway.sound ⟨h.released, h.reserved, hdec.of_view rfl⟩ ((phaseInv_txCmd (by exact rfl)).2
      ⟨zero_lt_ofNat_nine hle (by omega), toNat_ofNat_nine hle, nofun, fun _ => by simp, fun _ => ⟨rfl, rfl, hdec.of_view rfl⟩⟩)

/-- The first access of a carried command is BUF.CLR's (log 1). -/
theorem Sound.carry {data : List Byte} {s t : State} (h : Sound s) (ht : carry data s = .next t) : Sound t := by
  have hrest : Sound { s with hostProgram := carriedRest data ++ s.hostProgram } := h.of_view rfl h.reserved
  exact hrest.hostWrite (fun hp => h.of_idle hp rfl h.reserved rfl) ht

/-- Every instruction keeps the invariant. -/
theorem Sound.exec {i : Instr} {s t : State} (h : Sound s) (hb : s.dbuf.length ≤ 254) (ht : exec i s = .next t) :
    Sound t := by
  cases i with
  | nop => exact h.hostWrite (fun _ => h) ht
  | bufClr | crcInit | crcBlk | crcUpd b | tmoLo b | tmoHi b | err0Clr m | rptrSet b | tpReset =>
    simp only [Machine.exec, execBufClr, execCrcInit, execCrcBlk, execCrcUpd, execTmoLo, execTmoHi, execErr0Clr,
      execRptrSet, execTpReset] at ht
    exact h.hostWrite (fun hp => h.of_idle hp rfl h.reserved rfl) ht
  | err1Clr m =>
    simp only [Machine.exec, execErr1Clr] at ht
    exact h.hostWrite (fun hp => h.of_idle hp rfl (reserved_clearFlags h.reserved m) rfl) ht
  | bufPush b =>
    refine h.hostWrite (fun hp => ?_) ht
    obtain ⟨-, he⟩ | ⟨-, he⟩ := pushDbuf_cases b s <;> rw [he]
    · exact h.flag _
    · exact h.of_idle hp rfl h.reserved rfl
  | bufPushc b | crcApp =>
    simp only [Machine.exec, execBufPushc, execCrcApp] at ht
    refine h.hostWrite (fun hp => ?_) ht
    split
    · exact h.flag _
    · exact h.of_idle hp rfl h.reserved rfl
  | frmEnc =>
    simp only [Machine.exec, execFrmEnc, latchReqOp_eq] at ht
    refine h.hostWrite (fun hp => ?_) ht
    exact Sound.startTx (s := { s with reqOp := s.dbuf.head?.getD s.reqOp }) (h.of_idle hp rfl h.reserved rfl) hb .frame
      (Nat.succ_pos _) fun _ => rfl
  | frmAck =>
    refine h.hostWrite (fun _ => ?_) ht
    exact h.startTx hb .ack (sum := s.sum) (Nat.succ_pos _) nofun
  | txRaw =>
    simp only [Machine.exec, execTxRaw] at ht
    refine h.hostWrite (fun _ => ?_) ht
    split
    · exact h.of_idle rfl rfl h.reserved rfl
    next hne => exact h.startTx hb .raw (sum := s.sum) (List.length_pos_iff.2 hne) nofun
  | frmDec =>
    simp only [Machine.exec, execFrmDec] at ht
    refine h.hostWrite (fun _ => ?_) ht
    exact Underway.enter_six (s := { clearForDecode s with opsel := .frmDec })
      ⟨h.released, h.reserved, rfl, rfl, rfl, ⟨rfl, rfl⟩, nofun, nofun⟩ rfl (.inl rfl)
  | xact => exact h.hostWrite (fun _ => h.startXact hb) ht
  | tpFlush =>
    simp only [Machine.exec, execTpFlush] at ht
    refine h.hostWrite (fun _ => ?_) ht
    cases s.tpTxempty with
    | true => exact h.of_idle rfl rfl h.reserved rfl
    | false => exact ⟨h.released, h.reserved, h.results.of_view rfl, rfl⟩
  | srst =>
    simp only [Machine.exec, execSrst, Host.Outcome.next.injEq] at ht
    subst ht
    exact (invariant_blockReset s s.rst).sound h.released
  | rbufPop | rd a =>
    simp only [Machine.exec, execRbufPop, execRd, Host.Outcome.next.injEq] at ht
    subst ht
    exact h.hostRead _
  | getFirmwareVersion p | samConfiguration p | rfConfiguration p | inListPassiveTarget p | inDataExchange p
  | inCommunicateThru p | writeRegister p | tgInitAsTarget p => exact h.carry ht

/-- So does the effect of a word that is no operation. -/
theorem Sound.execRejected {r : Reject} {s t : State} (h : Sound s) (ht : execRejected r s = .next t) : Sound t := by
  cases r with
  | illegalCmd c => exact h.hostWrite (fun _ => h.flag _) ht
  | readOnly a | reserved a =>
    rw [Machine.execRejected, Host.Outcome.next.injEq] at ht
    exact ht ▸ h
  | unlisted op p => exact h.carry ht

/-- So does the host's move. -/
theorem Sound.hostMove {s t : State} (h : Sound s) (hb : s.dbuf.length ≤ 254) (ht : hostMove s = .next t) : Sound t := by
  have hrest (rest : List HostAction) : Sound { s with hostProgram := rest } := h.of_view rfl h.reserved
  obtain ⟨-, hm⟩ | ⟨w, rest, -, hm⟩ | ⟨rest, -, hm⟩ | ⟨rest, -, hm⟩ := hostMove_cases s <;> rw [hm] at ht
  · rw [Host.Outcome.next.injEq] at ht
    exact ht ▸ h
  · cases hd : decode w with
    | ok i =>
      rw [perform_ok hd] at ht
      exact (hrest rest).exec hb ht
    | error r =>
      rw [perform_error hd] at ht
      exact (hrest rest).execRejected ht
  · rw [Host.Outcome.next.injEq] at ht
    subst ht
    obtain ⟨-, hw⟩ | ⟨-, hw⟩ := waitStep_cases { s with hostProgram := rest } <;> rw [hw] <;>
      exact h.of_view rfl h.reserved
  · rw [Host.Outcome.next.injEq, readRspStep_eq] at ht
    subst ht
    exact h.of_view rfl h.reserved

/-! ### The time base and the peer -/

/-- A timer counted down is still at most what it was loaded with (R205). -/
theorem Reading.tick {n : Byte} {s : State} (h : Reading n s) (hpos : 0 < s.timer) :
    Reading n { s with timer := s.timer - 1 } where
  decoding := h.decoding.of_view rfl
  needs := h.needs
  counts := h.counts
  deadline := by
    have hd := h.deadline
    dsimp only
    bv_omega

theorem Sound.tickStep {s : State} (h : Sound s) : Sound (tickStep s) := by
  obtain he | ⟨hp, hpos, he⟩ := tickStep_cases s <;> rw [he]
  · exact h
  refine ⟨h.released, h.reserved, h.results.of_view rfl, ?_⟩
  obtain hp | hp | hp := isRead_cases hp
  · obtain ⟨hr, hb⟩ := (phaseInv_header hp).1 h.phase
    exact (phaseInv_header (by exact hp)).2 ⟨hr.tick hpos, hb⟩
  · obtain ⟨hr, hi⟩ := (phaseInv_rdPay hp).1 h.phase
    exact (phaseInv_rdPay (by exact hp)).2 ⟨hr.tick hpos, hi⟩
  · obtain ⟨hr, hl, hs⟩ := (phaseInv_trailer hp).1 h.phase
    exact (phaseInv_trailer (by exact hp)).2 ⟨hr.tick hpos, hl, hs⟩

theorem Sound.peerSendStep {s : State} (h : Sound s) : Sound (peerSendStep s) := by
  obtain he | ⟨b, rest, -, he⟩ | ⟨b, rest, -, he⟩ := peerSendStep_cases s <;> rw [he]
  · exact h
  all_goals exact h.of_view rfl h.reserved

theorem Sound.peerTakeStep {s : State} (h : Sound s) : Sound (peerTakeStep s) := by
  obtain ⟨-, he⟩ | ⟨b, rest, -, he⟩ := peerTakeStep_cases s <;> rw [he]
  · exact h
  · exact h.of_view rfl h.reserved

/-! ### The step -/

/-- A step under `rst`, or that asserts it, leaves the block as its reset does (R22). -/
theorem step_byReset {s t : State} (hr : byReset s) (h : step s = .next t) :
    ∃ (u : State) (r : Bool), t = { u.blockReset with rst := r } := by
  cases hrst : s.rst with
  | true => exact resetMove_atReset (by rw [← h, step_held hrst])
  | false =>
    have hn : nextAgent s = .rstAssert := hr.resolve_left (by simp [hrst])
    rw [step_agent hrst hn (by decide), agentStep, Host.Outcome.next.injEq] at h
    exact ⟨beginStep s, true, h.symm⟩

/-- A step outside `rst` keeps the invariant, whichever agent moves. -/
theorem Sound.step {s t : State} (h : Sound s) (hb : s.dbuf.length ≤ 254) (hr : ¬ byReset s) (ht : step s = .next t) :
    Sound t := by
  have hbegin : Sound (beginStep s) := h.of_view rfl h.reserved
  obtain ⟨-, hm⟩ | ⟨-, hm⟩ | ⟨-, rfl⟩ | ⟨-, rfl⟩ | ⟨-, rfl⟩ | ⟨-, rfl⟩ := step_cases ht hr
  · exact hbegin.hostMove hb hm
  · exact hbegin.seqStep hm
  · exact hbegin.tickStep
  · exact hbegin.peerSendStep
  · exact hbegin.peerTakeStep
  · exact hbegin

/-- Settles O50: under `rst` the block is at reset, which meets the invariant; outside it each agent's move keeps it. -/
theorem everyStepKeepsTheInvariant : Obligations.EveryStepKeepsTheInvariant := by
  unfold Obligations.EveryStepKeepsTheInvariant
  intro s t h ht
  by_cases hr : byReset s
  · obtain ⟨u, r, rfl⟩ := step_byReset hr ht
    exact invariant_blockReset u r
  · have hrst : s.rst = false := Bool.eq_false_iff.2 fun h => hr (.inl h)
    have hb := (memory_wf_iff s).1 h.buffers
    exact ((h.sound hrst).step hb.1 hr ht).invariant (memory_wf_step h.buffers ht)

end Sys2Proof.Machine
end

section
/-! PROOF. The register port by address: read-only and reserved addresses, every read, and the BUSY rule (20_memory.md R61,
R62, R71). -/

namespace Sys2Proof.Machine

open Sys2Proof.Spec

/-! ### Writes by address -/

/-- A write to a read-only address is rejected by that name (R62). -/
theorem decodeWrite_readOnly {a : Byte} (ha : a ∈ readOnly) (d : Byte) : decodeWrite a d = .error (.readOnly a) := by
  unfold readOnly at ha
  fin_cases ha <;> rfl

/-- So is one to a reserved address (R61). -/
theorem decodeWrite_reserved {a : Byte} (ha : 0x18 ≤ a.toNat) (d : Byte) : decodeWrite a d = .error (.reserved a) := by
  unfold decodeWrite
  split
  on_goal -1 => rfl
  all_goals omega

/-- A write to a writable address is an operation, or an illegal code of CMD (R93, R94). -/
theorem decodeWrite_error_of_writable {a d : Byte} {r : Reject} (ha : a ∈ writable) (h : decodeWrite a d = .error r) :
    r = .illegalCmd d := by
  unfold writable at ha
  fin_cases ha
  · exact decodeCmd_error h
  all_goals nomatch h

/-- Settles O8: the decoder rejects the word as a read-only write, which has no effect. -/
theorem readOnlyWritesChangeNothing : Obligations.ReadOnlyWritesChangeNothing := by
  unfold Obligations.ReadOnlyWritesChangeNothing
  intro s w hw
  exact perform_error (w := .wr w) (decodeWrite_readOnly hw (wrData w)) s

/-! ### Reads by address -/

/-- An RD word reads its address, BUSY or not (R71, R94). -/
theorem perform_rd (a : Byte) (s : State) : perform (.rd a) s = .next (hostRead a s) := by
  by_cases ha : a = 0x0E
  · subst ha
    rfl
  · have hd : decode (.rd a) = .ok (.rd a) := by
      rw [decode, decodeRead]
      split
      · exact absurd (BitVec.eq_of_toNat_eq ‹_›) ha
      · rfl
    rw [perform_ok hd, exec, execRd]

/-- A reserved address reads 0x00 (R61). -/
theorem readRegister_reserved {a : Byte} (ha : 0x18 ≤ a.toNat) (s : State) : readRegister a s = 0x00 := by
  unfold readRegister
  split
  on_goal -1 => rfl
  all_goals omega

/-- Settles O9: the decoder rejects a write to a reserved address, which has no effect; a read stores 0x00. -/
theorem reservedAddressesAreInert : Obligations.ReservedAddressesAreInert := by
  unfold Obligations.ReservedAddressesAreInert
  refine fun s => ⟨fun w hw => ?_, fun a ha => ?_⟩
  · exact perform_error (w := .wr w) (decodeWrite_reserved hw (wrData w)) s
  · have hne : a ≠ 0x0E := by rintro rfl; exact absurd ha (by decide)
    rw [perform_rd, hostRead_register hne, readRegister_reserved ha]

/-- The byte of STATUS is the sum of its fields at their places (R37). -/
theorem statusByte_eq_status (s : State) : statusByte s = s.status := by
  unfold statusByte State.status State.busy
  cases s.phase <;> cases s.result <;> rfl

theorem byteOf_mod_eq_lowByte (w : Word16) : byteOf (w.toNat % 256) = lowByte w := by
  apply BitVec.eq_of_toNat_eq
  simp [byteOf, lowByte]

theorem byteOf_div_eq_highByte (w : Word16) : byteOf (w.toNat / 256) = highByte w := by
  apply BitVec.eq_of_toNat_eq
  simp [byteOf, highByte, Nat.shiftRight_eq_div_pow]

/-- The register file reads as the map says, register by register (R61). -/
theorem readRegister_of_mem_registerMap {s : State} {p : Byte × Byte} (hp : p ∈ registerMap s) :
    p.1 ≠ 0x0E ∧ readRegister p.1 s = p.2 := by
  unfold registerMap at hp
  rw [statusByte_eq_status, byteOf_mod_eq_lowByte, byteOf_mod_eq_lowByte, byteOf_div_eq_highByte,
    byteOf_div_eq_highByte] at hp
  fin_cases hp <;> exact ⟨by simp, rfl⟩

/-- A kind of ERR1 sets its bit there and changes nothing else (R282, R292). -/
theorem flag_eq_of_mask0 {k : ErrKind} (hk : k.mask0 = 0x00) (s : State) :
    s.flag k = { s with err1 := s.err1 ||| k.mask1 } := by
  simp [State.flag, hk]

/-- A read, of RDATA too, changes `reg_rdata`, RPTR, ERR1 and the count of free bytes at most (R42, R226). -/
theorem hostRead_eq (a : Byte) (s : State) :
    ∃ b p e n, hostRead a s = { s with regRdata := b, rptr := p, err1 := e, freeIx := n } := by
  by_cases ha : a = 0x0E
  · subst ha
    rw [hostRead_rdata]
    obtain ⟨-, he⟩ | ⟨-, he⟩ := popRdata_cases s <;> rw [he]
    · exact ⟨_, _, _, _, rfl⟩
    · rw [flag_eq_of_mask0 rfl]
      exact ⟨_, _, _, _, rfl⟩
  · exact ⟨_, _, _, _, hostRead_register ha s⟩

/-! ### The BUSY rule -/

/-- While BUSY every write to a writable address but SRST's is turned away, an illegal code of CMD too (R71, R93). -/
theorem perform_writable_busy {s : State} {w : Word16} (hp : s.phase ≠ .idle) (ha : wrAddress w ∈ writable)
    (hw : w ≠ 0x007F) : perform (.wr w) s = .next (s.flag .cmdBusy) := by
  cases hd : decode (.wr w) with
  | ok i =>
    have hi : i ≠ .srst := fun hi => hw (eq_of_decode_srst (hi ▸ hd))
    rw [perform_ok hd, exec_busy (isWrite_of_decodeWrite hd hi) hp]
  | error r =>
    rw [perform_error hd, decodeWrite_error_of_writable ha hd, execRejected, hostWrite_busy _ hp]

/-- A read of RDATA leaves the phase, and within RLEN it advances RPTR (R42). -/
theorem popRdata_rptr (s : State) :
    (popRdata s).phase = s.phase ∧ (s.rptr < s.rlen → (popRdata s).rptr = s.rptr + 1) := by
  obtain ⟨-, he⟩ | ⟨hge, he⟩ := popRdata_cases s <;> rw [he]
  · exact ⟨rfl, fun _ => rfl⟩
  · exact ⟨rfl, fun hlt => absurd hlt hge⟩

/-- Settles O6: a write is turned away unless it is SRST's, which is the block's reset; reads do not ask for BUSY. -/
theorem busyIgnoresWrites : Obligations.BusyIgnoresWrites := by
  unfold Obligations.BusyIgnoresWrites
  refine fun s hp => ⟨fun w ha hw => ?_, ⟨s.blockReset, rfl, blockAtReset_blockReset s s.rst⟩, fun p hm => ?_,
    popRdata s, rfl, popRdata_rptr s⟩
  · rw [perform_writable_busy hp ha hw, flag_eq_of_mask0 rfl, ErrKind.mask1]
  · obtain ⟨hne, hread⟩ := readRegister_of_mem_registerMap hm
    rw [perform_rd, hostRead_register hne, hread]

end Sys2Proof.Machine
end

section
/-! PROOF. What a step while BUSY leaves of the running operation's inputs (20_memory.md R71, R76, 10_state.md R36). -/

namespace Sys2Proof.Machine

open Sys2Proof.Spec

/-- The inputs of a running operation: the command, its opcode, the latched and the written timeout, which operation it is. -/
def opInputs (s : State) : List Byte × Byte × Word16 × OpSel × Word16 := (s.dbuf, s.reqOp, s.tlatch, s.opsel, s.timeout)

/-- The sequencer's steps write no input. -/
theorem SeqKept.opInputs {s t : State} (h : SeqKept s t) : opInputs t = opInputs s :=
  (congrArg Machine.opInputs h.frame :)

theorem opInputs_seqStep {s t : State} (h : seqStep s = .next t) : opInputs t = opInputs s := by
  obtain hk | ⟨-, b, rest, -, hk⟩ | ⟨-, b, -, hk⟩ := seqStep_frame h
  all_goals exact hk.opInputs

/-- While BUSY a host write changes no input, whatever its effect on an idle block (R71). -/
theorem opInputs_hostWrite_busy {f : State → State} {s t : State} (hp : s.phase ≠ .idle) (h : hostWrite f s = .next t) :
    opInputs t = opInputs s := by
  rw [hostWrite_busy f hp, Host.Outcome.next.injEq] at h
  exact h ▸ rfl

theorem opInputs_carry_busy {data : List Byte} {s t : State} (hp : s.phase ≠ .idle) (h : carry data s = .next t) :
    opInputs t = opInputs s :=
  opInputs_hostWrite_busy (s := { s with hostProgram := carriedRest data ++ s.hostProgram }) hp h

/-- While BUSY an instruction changes no input, or is SRST (R71). -/
theorem opInputs_exec_busy {i : Instr} {s t : State} (hp : s.phase ≠ .idle) (h : exec i s = .next t) :
    t.phase = .idle ∨ opInputs t = opInputs s := by
  by_cases hi : isWrite i = true
  · rw [exec_busy hi hp, Host.Outcome.next.injEq] at h
    exact .inr (h ▸ rfl)
  cases i with
  | srst =>
    rw [exec, execSrst, Host.Outcome.next.injEq] at h
    exact .inl (h ▸ rfl)
  | rbufPop | rd a =>
    simp only [exec, execRbufPop, execRd, Host.Outcome.next.injEq] at h
    obtain ⟨b, p, e, n, he⟩ := hostRead_eq _ s
    exact .inr (h ▸ he ▸ rfl)
  | getFirmwareVersion p | samConfiguration p | rfConfiguration p | inListPassiveTarget p | inDataExchange p
  | inCommunicateThru p | writeRegister p | tgInitAsTarget p => exact .inr (opInputs_carry_busy hp h)
  | _ => exact absurd rfl hi

theorem opInputs_execRejected_busy {r : Reject} {s t : State} (hp : s.phase ≠ .idle) (h : execRejected r s = .next t) :
    opInputs t = opInputs s := by
  cases r with
  | illegalCmd c => exact opInputs_hostWrite_busy hp h
  | readOnly a | reserved a =>
    rw [execRejected, Host.Outcome.next.injEq] at h
    exact h ▸ rfl
  | unlisted op p => exact opInputs_carry_busy hp h

/-- While BUSY the host's access changes no input, or is SRST's. -/
theorem opInputs_hostMove_busy {s t : State} (hp : s.phase ≠ .idle) (h : hostMove s = .next t) :
    t.phase = .idle ∨ opInputs t = opInputs s := by
  obtain ⟨-, hm⟩ | ⟨w, rest, -, hm⟩ | ⟨rest, -, hm⟩ | ⟨rest, -, hm⟩ := hostMove_cases s <;> rw [hm] at h
  · rw [Host.Outcome.next.injEq] at h
    exact .inr (h ▸ rfl)
  · cases hd : decode w with
    | ok i =>
      rw [perform_ok hd] at h
      exact opInputs_exec_busy (s := { s with hostProgram := rest }) hp h
    | error r =>
      rw [perform_error hd] at h
      exact .inr (opInputs_execRejected_busy (s := { s with hostProgram := rest }) hp h)
  · rw [Host.Outcome.next.injEq] at h
    subst h
    obtain ⟨-, hw⟩ | ⟨-, hw⟩ := waitStep_cases { s with hostProgram := rest } <;> rw [hw] <;> exact .inr rfl
  · rw [Host.Outcome.next.injEq] at h
    exact .inr (h ▸ rfl)

/-- A step while BUSY ends the operation or changes no input. -/
theorem opInputs_step_busy {s t : State} (hp : s.phase ≠ .idle) (h : step s = .next t) :
    t.phase = .idle ∨ opInputs t = opInputs s := by
  by_cases hr : byReset s
  · obtain ⟨u, r, rfl⟩ := step_byReset hr h
    exact .inl rfl
  obtain ⟨-, hm⟩ | ⟨-, hm⟩ | ⟨-, rfl⟩ | ⟨-, rfl⟩ | ⟨-, rfl⟩ | ⟨-, rfl⟩ := step_cases h hr
  · exact opInputs_hostMove_busy (s := beginStep s) hp hm
  · exact .inr (opInputs_seqStep (s := beginStep s) hm)
  · obtain he | ⟨-, -, he⟩ := tickStep_cases (beginStep s) <;> rw [he] <;> exact .inr rfl
  · obtain he | ⟨b, rest, -, he⟩ | ⟨b, rest, -, he⟩ := peerSendStep_cases (beginStep s) <;> rw [he] <;> exact .inr rfl
  · obtain ⟨-, he⟩ | ⟨b, rest, -, he⟩ := peerTakeStep_cases (beginStep s) <;> rw [he] <;> exact .inr rfl
  · exact .inr rfl

/-- Settles O55: a step that leaves the block BUSY changes no input. -/
theorem runningOperationKeepsItsInputs : Obligations.RunningOperationKeepsItsInputs := by
  unfold Obligations.RunningOperationKeepsItsInputs
  intro s t hp h ht
  simpa only [opInputs, Prod.mk.injEq] using (opInputs_step_busy hp h).resolve_left ht

end Sys2Proof.Machine
end

section
/-! PROOF. What a step does to the transport's two streams (20_memory.md R73, 10_state.md R21, R46, R47). -/

namespace Sys2Proof.Machine

open Sys2Proof.Spec

/-- The transport's parameters, the bytes the peer has taken, RXQ and TXQ. -/
def streams (s : State) : Transport × List Byte × List Byte × List Byte := (s.transport, s.peerIn, s.rxq, s.txq)

theorem streams_eq {t : State} {tr : Transport} {pin rx tx : List Byte} (h : streams t = (tr, pin, rx, tx)) :
    t.transport = tr ∧ t.peerIn = pin ∧ t.rxq = rx ∧ t.txq = tx := by
  simpa only [streams, Prod.mk.injEq] using h

/-- How a move of the agent `a` can change the streams: not at all, by the host's TP.RESET, by the sequencer's receive of a
byte or its write of one, or by the peer's two moves. -/
inductive StreamMove (a : Agent) (s t : State) : Prop
  | still (h : streams t = streams s)
  | discard (ha : a = .host) (w : OpWord) (rest : List HostAction) (hw : s.hostProgram = .word w :: rest)
      (hd : decode w = .ok .tpReset) (h : streams t = (s.transport, s.peerIn, [], []))
  | receive (ha : a = .sequencer) (hp : s.phase.isRead = true) (b : Byte) (rest : List Byte) (hq : s.rxq = b :: rest)
      (h : streams t = (s.transport, s.peerIn, rest, s.txq))
  | transmit (ha : a = .sequencer) (b : Byte) (h : streams t = (s.transport, s.peerIn, s.rxq, s.txq ++ [b]))
  | send (ha : a = .peerSend) (b : Byte) (hq : s.peerOut = b :: t.peerOut)
      (h : streams t = (s.transport, s.peerIn, s.rxq ++ [b], s.txq))
  | take (ha : a = .peerTake) (b : Byte) (rest : List Byte) (hq : s.txq = b :: rest)
      (h : streams t = (s.transport, s.peerIn ++ [b], s.rxq, rest))

/-- What the step does first moves no byte. -/
theorem StreamMove.of_beginStep {a : Agent} {s t : State} (h : StreamMove a (beginStep s) t) : StreamMove a s t := by
  cases h with
  | still h => exact .still h
  | discard ha w rest hw hd h => exact .discard ha w rest hw hd h
  | receive ha hp b rest hq h => exact .receive ha hp b rest hq h
  | transmit ha b h => exact .transmit ha b h
  | send ha b hq h => exact .send ha b hq h
  | take ha b rest hq h => exact .take ha b rest hq h

/-- Nor does the block's reset, after which nothing is received (R51, R323). -/
theorem StreamMove.of_blockReset {a : Agent} {s t : State} (h : StreamMove a s.blockReset t) : StreamMove a s t := by
  cases h with
  | still h => exact .still h
  | discard ha w rest hw hd h => exact .discard ha w rest hw hd h
  | receive ha hp b rest hq h => nomatch hp
  | transmit ha b h => exact .transmit ha b h
  | send ha b hq h => exact .send ha b hq h
  | take ha b rest hq h => exact .take ha b rest hq h

/-! ### The host -/

theorem streams_hostWrite {f : State → State} {s t : State} (hf : streams (f s) = streams s) (h : hostWrite f s = .next t) :
    streams t = streams s := by
  obtain ⟨-, hw⟩ | ⟨-, hw⟩ := hostWrite_cases f s <;> rw [hw, Host.Outcome.next.injEq] at h <;> subst h
  · exact hf
  · rfl

theorem streams_carry {data : List Byte} {s t : State} (h : carry data s = .next t) : streams t = streams s :=
  streams_hostWrite (s := { s with hostProgram := carriedRest data ++ s.hostProgram }) rfl h

/-- TP.RESET discards both streams, or is turned away (R71, R217). -/
theorem streams_execTpReset {s t : State} (h : execTpReset s = .next t) :
    streams t = streams s ∨ streams t = (s.transport, s.peerIn, [], []) := by
  unfold execTpReset at h
  obtain ⟨-, hw⟩ | ⟨-, hw⟩ := hostWrite_cases (fun s => { s with tpReset := true, rxq := [], txq := [] }) s <;>
    rw [hw, Host.Outcome.next.injEq] at h <;> subst h
  · exact .inr rfl
  · exact .inl rfl

/-- No other instruction moves a byte of the streams. -/
theorem streams_exec {i : Instr} {s t : State} (hi : i ≠ .tpReset) (h : exec i s = .next t) : streams t = streams s := by
  cases i with
  | tpReset => exact absurd rfl hi
  | nop | bufClr | frmAck => exact streams_hostWrite rfl h
  | crcInit | crcBlk | tpFlush | err0Clr m | err1Clr m | tmoLo b | tmoHi b | crcUpd b | rptrSet b =>
    simp only [exec, execCrcInit, execCrcBlk, execTpFlush, execErr0Clr, execErr1Clr, execTmoLo, execTmoHi, execCrcUpd,
      execRptrSet] at h
    exact streams_hostWrite rfl h
  | bufPush b =>
    refine streams_hostWrite ?_ h
    obtain ⟨-, he⟩ | ⟨-, he⟩ := pushDbuf_cases b s <;> rw [he] <;> rfl
  | crcApp | bufPushc b | txRaw =>
    simp only [exec, execCrcApp, execBufPushc, execTxRaw] at h
    refine streams_hostWrite ?_ h
    split <;> rfl
  | frmEnc =>
    simp only [exec, execFrmEnc, latchReqOp_eq] at h
    exact streams_hostWrite rfl h
  | frmDec =>
    simp only [exec, execFrmDec, enter_pos (show (6 : Byte) ≠ 0 by decide)] at h
    exact streams_hostWrite rfl h
  | xact =>
    refine streams_hostWrite ?_ h
    unfold startXact
    rw [latchReqOp_eq]
    split <;> rfl
  | srst =>
    rw [exec, execSrst, Host.Outcome.next.injEq] at h
    exact h ▸ rfl
  | rbufPop | rd a =>
    simp only [exec, execRbufPop, execRd, Host.Outcome.next.injEq] at h
    obtain ⟨b, p, e, n, he⟩ := hostRead_eq _ s
    exact h ▸ he ▸ rfl
  | getFirmwareVersion p | samConfiguration p | rfConfiguration p | inListPassiveTarget p | inDataExchange p
  | inCommunicateThru p | writeRegister p | tgInitAsTarget p => exact streams_carry h

theorem streams_execRejected {r : Reject} {s t : State} (h : execRejected r s = .next t) : streams t = streams s := by
  cases r with
  | illegalCmd c => exact streams_hostWrite rfl h
  | readOnly a | reserved a =>
    rw [execRejected, Host.Outcome.next.injEq] at h
    exact h ▸ rfl
  | unlisted op p => exact streams_carry h

theorem streamMove_hostMove {s t : State} (h : hostMove s = .next t) : StreamMove .host s t := by
  obtain ⟨-, hm⟩ | ⟨w, rest, hw, hm⟩ | ⟨rest, -, hm⟩ | ⟨rest, -, hm⟩ := hostMove_cases s <;> rw [hm] at h
  · rw [Host.Outcome.next.injEq] at h
    exact .still (h ▸ rfl)
  · cases hd : decode w with
    | ok i =>
      rw [perform_ok hd] at h
      by_cases hi : i = .tpReset
      · subst hi
        obtain he | he := streams_execTpReset (s := { s with hostProgram := rest }) h
        · exact .still he
        · exact .discard rfl w rest hw hd he
      · exact .still (streams_exec (s := { s with hostProgram := rest }) hi h)
    | error r =>
      rw [perform_error hd] at h
      exact .still (streams_execRejected (s := { s with hostProgram := rest }) h)
  · rw [Host.Outcome.next.injEq] at h
    subst h
    obtain ⟨-, he⟩ | ⟨-, he⟩ := waitStep_cases { s with hostProgram := rest } <;> rw [he] <;> exact .still rfl
  · rw [Host.Outcome.next.injEq] at h
    exact .still (h ▸ rfl)

/-! ### The other agents -/

/-- The sequencer's steps write none of what `streams` reads. -/
theorem SeqKept.streams {s t : State} (h : SeqKept s t) : streams t = streams s := (congrArg Machine.streams h.frame :)

theorem streamMove_seqStep {s t : State} (h : seqStep s = .next t) : StreamMove .sequencer s t := by
  obtain hk | ⟨hp, b, rest, hq, hk⟩ | ⟨-, b, -, hk⟩ := seqStep_frame h
  · exact .still hk.streams
  · exact .receive rfl hp b rest hq hk.streams
  · exact .transmit rfl b hk.streams

theorem streamMove_peerSendStep (s : State) : StreamMove .peerSend s (peerSendStep s) := by
  obtain he | ⟨b, rest, hq, he⟩ | ⟨b, rest, -, he⟩ := peerSendStep_cases s <;> rw [he]
  · exact .still rfl
  · exact .send rfl b hq rfl
  · exact .still rfl

theorem streamMove_peerTakeStep (s : State) : StreamMove .peerTake s (peerTakeStep s) := by
  obtain ⟨-, he⟩ | ⟨b, rest, hq, he⟩ := peerTakeStep_cases s <;> rw [he]
  · exact .still rfl
  · exact .take rfl b rest hq rfl

theorem streams_tickStep (s : State) : streams (tickStep s) = streams s := by
  obtain he | ⟨-, -, he⟩ := tickStep_cases s <;> rw [he]
  rfl

theorem streams_rstReleaseStep (s : State) : streams (rstReleaseStep s) = streams s := by
  unfold rstReleaseStep
  split <;> rfl

theorem streamMove_agentStep {a : Agent} {s t : State} (h : agentStep a s = .next t) : StreamMove a s t := by
  cases a with
  | sequencer => exact streamMove_seqStep h
  | host | rstAssert =>
    rw [agentStep, Host.Outcome.next.injEq] at h
    exact h ▸ .still rfl
  | timeBase =>
    rw [agentStep, Host.Outcome.next.injEq] at h
    exact h ▸ .still (streams_tickStep s)
  | peerSend =>
    rw [agentStep, Host.Outcome.next.injEq] at h
    exact h ▸ streamMove_peerSendStep s
  | peerTake =>
    rw [agentStep, Host.Outcome.next.injEq] at h
    exact h ▸ streamMove_peerTakeStep s
  | rstRelease =>
    rw [agentStep, Host.Outcome.next.injEq] at h
    exact h ▸ .still (streams_rstReleaseStep s)

/-! ### The step -/

theorem streamMove_move {a : Agent} {s t : State} (h : move a s = .next t) : StreamMove a s t := by
  cases a with
  | host => exact streamMove_hostMove h
  | sequencer | timeBase | peerSend | peerTake | rstAssert | rstRelease => exact streamMove_agentStep h

/-- While `rst` is asserted the host moves no byte, not even by TP.RESET (R22, log 15). -/
theorem streams_resetMove_host {s t : State} (h : resetMove .host s = .next t) : streams t = streams s := by
  obtain ⟨u, hu⟩ := hostMove_completes s.blockReset
  have hp : u.transport = s.transport ∧ u.peerIn = s.peerIn := by
    cases streamMove_hostMove hu with
    | still h | discard _ _ _ _ _ h =>
      simp only [streams, Prod.mk.injEq] at h
      exact ⟨h.1, h.2.1⟩
    | receive ha | transmit ha | send ha | take ha => nomatch ha
  rw [resetMove, hu, holdReset, Host.Outcome.next.injEq] at h
  subst h
  simp [streams, hp]

theorem streamMove_resetMove {a : Agent} {s t : State} (h : resetMove a s = .next t) : StreamMove a s t := by
  cases a with
  | host => exact .still (streams_resetMove_host h)
  | sequencer | timeBase =>
    rw [resetMove, Host.Outcome.next.injEq] at h
    exact .still (h ▸ rfl)
  | peerSend | peerTake | rstAssert | rstRelease =>
    rw [resetMove] at h
    exact (streamMove_agentStep h).of_blockReset

theorem streamMove_step {s t : State} (h : step s = .next t) : StreamMove (nextAgent s) s t := by
  refine .of_beginStep ?_
  cases hr : s.rst with
  | true => exact streamMove_resetMove (by rw [← step_held hr, h])
  | false => exact streamMove_move (by rw [← step_run hr, h])

/-- Settles O56: each kind of move of the streams keeps both first-in first-out. -/
theorem streamsAreFirstInFirstOut : Obligations.StreamsAreFirstInFirstOut := by
  unfold Obligations.StreamsAreFirstInFirstOut
  intro s t h
  cases streamMove_step h with
  | still h =>
    obtain ⟨htr, hin, hrx, htx⟩ := streams_eq h
    exact ⟨htr, .inr ⟨.inl ⟨hin, [], by simp [htx]⟩, .inl hrx⟩⟩
  | discard ha w rest hw hd h =>
    obtain ⟨htr, -⟩ := streams_eq h
    exact ⟨htr, .inl ⟨ha, w, rest, hw, hd⟩⟩
  | receive ha hp b rest hq h =>
    obtain ⟨htr, hin, hrx, htx⟩ := streams_eq h
    exact ⟨htr, .inr ⟨.inl ⟨hin, [], by simp [htx]⟩, .inr (.inl ⟨ha, hp, b, hrx ▸ hq⟩)⟩⟩
  | transmit ha b h =>
    obtain ⟨htr, hin, hrx, htx⟩ := streams_eq h
    exact ⟨htr, .inr ⟨.inl ⟨hin, [b], htx⟩, .inl hrx⟩⟩
  | send ha b hq h =>
    obtain ⟨htr, hin, hrx, htx⟩ := streams_eq h
    exact ⟨htr, .inr ⟨.inl ⟨hin, [], by simp [htx]⟩, .inr (.inr ⟨ha, b, hq, hrx⟩)⟩⟩
  | take ha b rest hq h =>
    obtain ⟨htr, hin, hrx, htx⟩ := streams_eq h
    exact ⟨htr, .inr ⟨.inr ⟨ha, b, htx ▸ hq, hin⟩, .inl hrx⟩⟩

end Sys2Proof.Machine
end

section
/-! PROOF. The decoder and the encoder are inverse to each other (30_encoding.md R90, R92, R94, 44_carried_commands.md
R230). -/

namespace Sys2Proof.Machine

open Sys2Proof.Spec

/-! ### Bytes and the fields of a WR word -/

@[simp] theorem byteOf_toNat (b : Byte) : byteOf b.toNat = b := BitVec.ofNat_toNat 8 b

/-- Bits 15:8 of a WR word are its address byte (R90). -/
@[simp] theorem wrAddress_append (a d : Byte) : wrAddress (a ++ d) = a :=
  BitVec.extractLsb'_append_eq_left

/-- Bits 7:0 of a WR word are its data byte (R90). -/
@[simp] theorem wrData_append (a d : Byte) : wrData (a ++ d) = d :=
  BitVec.extractLsb'_append_eq_right

/-- A WR word decodes by its two bytes (R90). -/
theorem decode_wrWord (a d : Byte) : decode (wrWord a d) = decodeWrite a d := by
  rw [wrWord, decode, wrAddress_append, wrData_append]

/-! ### Decoding what was encoded -/

/-- Every address but RDATA's is read as RD (R94). -/
theorem decodeRead_of_ne {a : Byte} (ha : a ≠ 0x0E) : decodeRead a = .rd a := by
  unfold decodeRead
  split
  · exact absurd (BitVec.eq_of_toNat_eq ‹_›) ha
  · rfl

/-- The word of a well-formed instruction decodes to it. A WR word is read back byte by byte; of the RD words the
well-formed ones leave out RDATA's address, RBUF.POP's (R226). -/
theorem decode_encode {i : Instr} (hi : i.wellFormed = true) : decode (encode i) = .ok i := by
  cases i with
  | rbufPop => rfl
  | rd a => exact congrArg Except.ok (decodeRead_of_ne (of_decide_eq_true hi))
  | getFirmwareVersion p | samConfiguration p | rfConfiguration p | inListPassiveTarget p | inDataExchange p
  | inCommunicateThru p | writeRegister p | tgInitAsTarget p => rfl
  | _ => exact decode_wrWord _ _

/-- Settles O58: by the format of the instruction's word. -/
theorem decodeOfEncode : Obligations.DecodeOfEncode := by
  unfold Obligations.DecodeOfEncode
  exact fun _ hi => decode_encode hi

/-! ### Encoding what was decoded -/

/-- A command's code is the data byte of its word (R92). -/
theorem encode_of_decodeCmd {d : Byte} {i : Instr} (h : decodeCmd d = .ok i) : encode i = wrWord 0x00 d := by
  unfold decodeCmd at h
  split at h
  on_goal -1 => nomatch h
  all_goals
    rename_i hd
    cases h
    exact congrArg (wrWord 0x00) (BitVec.eq_of_toNat_eq hd.symm)

/-- A WR word that decodes is its instruction's word (R94). -/
theorem encode_of_decodeWrite {a d : Byte} {i : Instr} (h : decodeWrite a d = .ok i) : encode i = wrWord a d := by
  unfold decodeWrite at h
  split at h
  next ha => exact (encode_of_decodeCmd h).trans (congrArg (wrWord · d) (BitVec.eq_of_toNat_eq ha.symm))
  all_goals cases h
  all_goals
    rename_i ha
    exact congrArg (wrWord · d) (BitVec.eq_of_toNat_eq ha.symm)

/-- An RD word is its instruction's word (R94). -/
theorem encode_decodeRead (a : Byte) : encode (decodeRead a) = .rd a := by
  unfold decodeRead
  split
  · exact congrArg OpWord.rd (BitVec.eq_of_toNat_eq (Eq.symm ‹_›))
  · rfl

/-- A CARRIED word that decodes is its instruction's word (R230). -/
theorem encode_of_decodeCarried {op : Byte} {p : List Byte} {i : Instr} (h : decodeCarried op p = .ok i) :
    encode i = .carried op p := by
  unfold decodeCarried at h
  split at h
  on_goal -1 => nomatch h
  all_goals
    rename_i hop
    cases h
    exact congrArg (OpWord.carried · p) (BitVec.eq_of_toNat_eq hop.symm)

/-- Settles O59: format by format, each by the decoder of that format. -/
theorem encodeOfDecode : Obligations.EncodeOfDecode := by
  unfold Obligations.EncodeOfDecode
  intro w i h
  cases w with
  | wr w => exact (encode_of_decodeWrite h).trans (congrArg OpWord.wr (wrAddress_append_wrData w))
  | rd a => exact Except.ok.inj h ▸ encode_decodeRead a
  | carried op p => exact encode_of_decodeCarried h

/-! ### The words of the tables -/

/-- A code that decodes is one of R92's. -/
theorem mem_legalCodes_of_decodeCmd {d : Byte} {i : Instr} (h : decodeCmd d = .ok i) : d ∈ legalCodes := by
  rw [← byteOf_toNat d]
  unfold decodeCmd at h
  split at h
  on_goal -1 => nomatch h
  all_goals
    rename_i hd
    rw [hd]
    decide

/-- Every code that R92 does not define is illegal (R93). -/
theorem decodeCmd_illegal {c : Byte} (hc : c ∉ legalCodes) : decodeCmd c = .error (.illegalCmd c) := by
  cases hd : decodeCmd c with
  | ok i => exact absurd (mem_legalCodes_of_decodeCmd hd) hc
  | error r => rw [decodeCmd_error hd]

/-- Settles O60: each accepted word is the encoding of its instruction, each rejected one has an address or a code that no
operation has. -/
theorem writtenWordsDecode : Obligations.WrittenWordsDecode := by
  unfold Obligations.WrittenWordsDecode
  exact ⟨decode_encode (i := .xact) rfl, decode_encode (i := .crcBlk) rfl, decode_encode (i := .srst) rfl,
    decode_encode (i := .bufPush 0x4A) rfl, decode_encode (i := .bufPushc 0x05) rfl, decode_encode (i := .tmoHi 0x13) rfl,
    decode_encode (i := .err0Clr 0x10) rfl, decode_encode (i := .rptrSet 0x00) rfl,
    decodeCmd_illegal (c := 0x05) (by decide), decodeWrite_readOnly (a := 0x06) (by decide) 0x55,
    decodeWrite_reserved (a := 0x80) (by decide) 0x01, decode_encode (i := .rbufPop) rfl,
    decode_encode (i := .rd 0x10) rfl, decode_encode (i := .inListPassiveTarget [0x01, 0x00]) rfl⟩

end Sys2Proof.Machine
end

section
/-! PROOF. The host's accesses in one step: an illegal CMD code (R93), WAIT and READRSP (R112, R113), and a carried command
as the first access of LOAD and XACT (44_carried_commands.md R230, log 1). -/

namespace Sys2Proof.Machine

open Sys2Proof.Spec

/-! ### Illegal CMD codes -/

/-- A write of an illegal code to CMD is a host write that flags it (R93). -/
theorem perform_illegalCmd {c : Byte} (hc : c ∉ legalCodes) (s : State) :
    perform (.wr (0x00#8 ++ c)) s = hostWrite (·.flag .illegalCmd) s :=
  perform_error ((decode_wrWord 0x00 c).trans (decodeCmd_illegal hc)) s

/-- Settles O7: the host write that flags the code, idle and BUSY. -/
theorem illegalCodesOnlyFlag : Obligations.IllegalCodesOnlyFlag := by
  unfold Obligations.IllegalCodesOnlyFlag
  refine fun s c hc => ⟨fun hp => ?_, fun hp => ?_⟩
  · rw [perform_illegalCmd hc, hostWrite_idle _ hp, flag_eq_of_mask0 rfl, ErrKind.mask1]
  · rw [perform_illegalCmd hc, hostWrite_busy _ hp, flag_eq_of_mask0 rfl, ErrKind.mask1]

/-! ### WAIT and READRSP -/

/-- The host's turn with WAIT next (R113). -/
theorem step_host_wait {s : State} {rest : List HostAction} (hr : s.rst = false) (h : nextAgent s = .host)
    (hp : s.hostProgram = .wait :: rest) : step s = .next (waitStep { beginStep s with hostProgram := rest }) := by
  rw [step_host hr h, hostMove, beginStep_hostProgram, hp]

/-- The host's turn with READRSP next (R112). -/
theorem step_host_readRsp {s : State} {rest : List HostAction} (hr : s.rst = false) (h : nextAgent s = .host)
    (hp : s.hostProgram = .readRsp :: rest) : step s = .next (readRspStep { beginStep s with hostProgram := rest }) := by
  rw [step_host hr h, hostMove, beginStep_hostProgram, hp]

/-- While BUSY a read of WAIT leaves it the host's next action (R112). -/
theorem waitStep_busy {s : State} (hp : s.phase ≠ .idle) :
    waitStep s = { s with regRdata := statusByte s, hostProgram := .wait :: s.hostProgram } := by
  obtain ⟨-, he⟩ | ⟨hi, -⟩ := waitStep_cases s
  · rw [he, statusByte_eq_status]
  · exact absurd hi hp

/-- On an idle block a read of WAIT is its last (R112). -/
theorem waitStep_idle {s : State} (hp : s.phase = .idle) : waitStep s = { s with regRdata := statusByte s } := by
  obtain ⟨hb, -⟩ | ⟨-, he⟩ := waitStep_cases s
  · exact absurd hp hb
  · rw [he, statusByte_eq_status]

/-- Settles O5: both outcomes of WAIT's read, and READRSP's. -/
theorem waitEndsWhenNotBusy : Obligations.WaitEndsWhenNotBusy := by
  unfold Obligations.WaitEndsWhenNotBusy
  refine fun s rest hr hn => ⟨fun hw => ⟨fun hp => ?busy, fun hp => ?idle⟩, fun hw => ?readRsp⟩
  case busy =>
    rw [step_host_wait hr hn hw, waitStep_busy (s := { beginStep s with hostProgram := rest }) hp]
    simp only [statusByte, beginStep, hw]
  case idle =>
    rw [step_host_wait hr hn hw, waitStep_idle (s := { beginStep s with hostProgram := rest }) hp]
    rfl
  case readRsp =>
    rw [step_host_readRsp hr hn hw, readRspStep_eq]
    rfl

/-! ### Carried commands -/

/-- Carrying is the host write of BUF.CLR, with the pushes and XACT, as the encoder writes them, put first on the host's
list (log 1). -/
theorem carry_eq_hostWrite (data : List Byte) (s : State) :
    carry data s = hostWrite clearDbuf { s with hostProgram := loadRest data ++ s.hostProgram } := rfl

theorem carry_idle {s : State} (hp : s.phase = .idle) (data : List Byte) :
    carry data s = .next { s with dbuf := [], hostProgram := loadRest data ++ s.hostProgram } :=
  hostWrite_idle clearDbuf (s := { s with hostProgram := loadRest data ++ s.hostProgram }) hp

theorem carry_busy {s : State} (hp : s.phase ≠ .idle) (data : List Byte) :
    carry data s = .next { s with err1 := s.err1 ||| 0x04, hostProgram := loadRest data ++ s.hostProgram } := by
  rw [carry_eq_hostWrite, hostWrite_busy clearDbuf (s := { s with hostProgram := loadRest data ++ s.hostProgram }) hp,
    flag_eq_of_mask0 rfl]
  rfl

/-- An instruction with a CARRIED word is carried, whichever it is (R230). -/
theorem exec_of_encode_carried {i : Instr} {op : Byte} {p : List Byte} (h : encode i = .carried op p) (s : State) :
    exec i s = carry (op :: p) s := by
  cases i with
  | getFirmwareVersion _ | samConfiguration _ | rfConfiguration _ | inListPassiveTarget _ | inDataExchange _
  | inCommunicateThru _ | writeRegister _ | tgInitAsTarget _ =>
    cases h
    rfl
  | _ => nomatch h

/-- The eight commands have CARRIED words with their opcodes (R230). -/
theorem encode_of_mem_carriedTable {c : (List Byte → Instr) × Byte} (hc : c ∈ carriedTable) (p : List Byte) :
    encode (c.1 p) = .carried c.2 p := by
  unfold carriedTable at hc
  fin_cases hc <;> rfl

/-- A CARRIED word that is none of the eight is rejected by that name (R230, log 22). -/
theorem decodeCarried_error {op : Byte} {p : List Byte} {r : Reject} (h : decodeCarried op p = .error r) :
    r = .unlisted op p := by
  unfold decodeCarried at h
  split at h <;> cases h
  rfl

/-- A CARRIED word of any opcode is carried (R230). -/
theorem perform_carried (op : Byte) (p : List Byte) (s : State) : perform (.carried op p) s = carry (op :: p) s := by
  cases hd : decodeCarried op p with
  | ok i => rw [perform_ok (w := .carried op p) hd, exec_of_encode_carried (encode_of_decodeCarried hd)]
  | error r => rw [perform_error (w := .carried op p) hd, decodeCarried_error hd, execRejected]

/-- That host write is the access of BUF.CLR's word (R222). -/
theorem carry_eq_perform_bufClr (data : List Byte) (s : State) :
    carry data s = perform (.wr 0x0001) { s with hostProgram := loadRest data ++ s.hostProgram } :=
  (perform_ok (w := .wr 0x0001) (decode_encode (i := .bufClr) rfl) _).symm

/-- A word on the host's port is performed by the next step, or, while `rst` is asserted, on the reset block and held off
the queues (log 15). -/
theorem step_withHostWord_cases (s : State) (w : OpWord) :
    step (withHostWord s w) =
      if s.rst then holdReset s (perform w { s with tpReset := false }.blockReset)
      else perform w { s with tpReset := false } := by
  by_cases hr : s.rst = true
  · rw [if_pos hr]
    exact step_held (s := withHostWord s w) hr
  · rw [if_neg hr]
    exact step_withHostWord (Bool.eq_false_of_not_eq_true hr) w

/-- Settles O40: each of the eight is carried, idle or BUSY; a CARRIED word and BUF.CLR's are the same access. -/
theorem carriedCommandEqualsLoadAndXact : Obligations.CarriedCommandEqualsLoadAndXact := by
  unfold Obligations.CarriedCommandEqualsLoadAndXact
  refine ⟨fun c hc p s => ?_, fun op p s => ?_⟩
  · rw [exec_of_encode_carried (encode_of_mem_carriedTable hc p)]
    exact ⟨fun hp => carry_idle hp _, fun hp => carry_busy hp _⟩
  · simp only [step_withHostWord_cases, perform_carried, carry_eq_perform_bufClr]
    rfl

end Sys2Proof.Machine
end

section
/-! PROOF. The frame's fields and their two invariants (30_encoding.md R95 to R97, R101 to R103, 41_framer.md R155). -/

namespace Sys2Proof.Machine

open Sys2Proof.Spec

/-! ### Sums modulo 256 -/

/-- The byte of a sum is the sum of the bytes (R11). -/
theorem byteOf_add (m n : Nat) : byteOf (m + n) = byteOf m + byteOf n := BitVec.ofNat_add m n

theorem byteOf_eq_zero_iff {n : Nat} : byteOf n = 0 ↔ n % 256 = 0 := by
  rw [← BitVec.toNat_inj]
  exact Iff.rfl

/-- Adding modulo 256 at every byte is adding first and reducing at the end (R103). -/
theorem byteSum_eq_byteOf_natSum (data : List Byte) : byteSum data = byteOf (natSum data) := by
  induction data with
  | nil => rfl
  | cons b data ih =>
    calc byteSum (b :: data) = b + byteSum data := List.sum_cons
      _ = byteOf b.toNat + byteOf (natSum data) := by rw [ih, byteOf_toNat]
      _ = byteOf (natSum (b :: data)) := (byteOf_add _ _).symm

/-- The two's complement is what is missing to 256 (R102, R103). -/
theorem add_twosComplement (x : Byte) : x + twosComplement x = 0 := by
  have hneg : twosComplement x = -x := (BitVec.neg_eq_not_add x).symm
  rw [hneg]
  exact BitVec.add_right_neg x

/-! ### The fields -/

/-- LEN does not wrap within the capacity of DBUF (R96, R101). -/
theorem toNat_frameLen {data : List Byte} (h : data.length ≤ 254) : (frameLen data).toNat = data.length + 1 :=
  Nat.mod_eq_of_lt (by omega)

/-- A frame is eight bytes and its data (R96). -/
theorem length_frameBytes (tfi : Byte) (data : List Byte) : (frameBytes tfi data).length = data.length + 8 := by
  simp [frameBytes]

/-- The length invariant of R97, on unbounded sums. -/
theorem frameLen_add_frameLcs (data : List Byte) : ((frameLen data).toNat + (frameLcs data).toNat) % 256 = 0 := by
  rw [← byteOf_eq_zero_iff, byteOf_add, byteOf_toNat, byteOf_toNat]
  exact add_twosComplement _

/-- The data invariant of R97, on unbounded sums. -/
theorem tfi_add_natSum_add_frameDcs (tfi : Byte) (data : List Byte) :
    (tfi.toNat + natSum data + (frameDcs tfi data).toNat) % 256 = 0 := by
  rw [← byteOf_eq_zero_iff, byteOf_add, byteOf_add, byteOf_toNat, byteOf_toNat, ← byteSum_eq_byteOf_natSum]
  exact add_twosComplement _

/-- Settles O23: the fields of the frame as the framer computes them. -/
theorem framesSatisfyTheirInvariants : Obligations.FramesSatisfyTheirInvariants := by
  unfold Obligations.FramesSatisfyTheirInvariants
  exact fun tfi data h => ⟨frameLen data, frameLcs data, frameDcs tfi data, rfl, toNat_frameLen h,
    frameLen_add_frameLcs data, tfi_add_natSum_add_frameDcs tfi data, length_frameBytes tfi data⟩

end Sys2Proof.Machine
end

section
/-! PROOF. The CRC unit: the byte step in its integer, linear and bit-serial forms and the zero residue (40_crc16a.md
R131, R132, R139 to R141), then CRC.INIT, CRC.UPD, CRC.BLK and CRC.APP (R134, R135, R137, R138). -/

namespace Sys2Proof.Machine

open Sys2Proof.Spec

/-! ### The byte step on unbounded integers -/

/-- The second line of R131: the mask keeps the mixing to a byte. -/
theorem toNat_mixing (t : Byte) : (t ^^^ t <<< 4).toNat = (t.toNat ^^^ t.toNat <<< 4) &&& 0xFF := by
  rw [Nat.and_two_pow_sub_one_eq_mod _ 8, Nat.xor_mod_two_pow, Nat.mod_eq_of_lt t.isLt, BitVec.toNat_xor,
    BitVec.toNat_shiftLeft]

/-- The third line of R131: no term exceeds 16 bits, so the mask removes nothing. -/
theorem toNat_folding (acc : Word16) (t : Byte) :
    ((acc >>> 8) ^^^ (t.setWidth 16 <<< 8) ^^^ (t.setWidth 16 <<< 3) ^^^ (t.setWidth 16 >>> 4)).toNat =
      ((acc.toNat >>> 8) ^^^ (t.toNat <<< 8) ^^^ (t.toNat <<< 3) ^^^ (t.toNat >>> 4)) &&& 0xFFFF := by
  have hw : (t.setWidth 16).toNat = t.toNat := BitVec.toNat_setWidth_of_le (by decide)
  have hacc : acc.toNat >>> 8 < 2 ^ 16 := (acc >>> 8).isLt
  have ht : t.toNat >>> 4 < 2 ^ 16 := hw ▸ (t.setWidth 16 >>> 4).isLt
  simp only [BitVec.toNat_xor, BitVec.toNat_ushiftRight, BitVec.toNat_shiftLeft, hw,
    Nat.and_two_pow_sub_one_eq_mod _ 16, Nat.xor_mod_two_pow, Nat.mod_eq_of_lt hacc, Nat.mod_eq_of_lt ht]

/-- The model's step is the document's, line by line (R131). -/
theorem toNat_crcStep (acc : Word16) (b : Byte) : (crcStep acc b).toNat = stepByRule acc.toNat b.toNat := by
  have ht1 : (b ^^^ acc.setWidth 8).toNat = b.toNat ^^^ (acc.toNat &&& 0xFF) := by
    rw [BitVec.toNat_xor, BitVec.toNat_setWidth, Nat.and_two_pow_sub_one_eq_mod _ 8]
  simp only [crcStep, stepByRule, toNat_folding, toNat_mixing, ht1]

theorem crcStep_eq_ofNat (acc : Word16) (b : Byte) : crcStep acc b = BitVec.ofNat 16 (stepByRule acc.toNat b.toNat) := by
  rw [← toNat_crcStep, BitVec.ofNat_toNat, BitVec.setWidth_eq]

/-- The fold of R132 on words is the fold on integers. -/
theorem toNat_crcFold (acc : Word16) (data : List Byte) :
    (crcFold acc data).toNat = (data.map BitVec.toNat).foldl stepByRule acc.toNat := by
  induction data generalizing acc with
  | nil => rfl
  | cons b data ih =>
    calc (crcFold (crcStep acc b) data).toNat
      _ = (data.map BitVec.toNat).foldl stepByRule (crcStep acc b).toNat := ih _
      _ = (data.map BitVec.toNat).foldl stepByRule (stepByRule acc.toNat b.toNat) := by rw [toNat_crcStep]

theorem crc_eq_ofNat (data : List Byte) : crc data = BitVec.ofNat 16 (crcByRule data) := by
  have hfold : (crc data).toNat = crcByRule data := toNat_crcFold crcInitial data
  rw [← hfold, BitVec.ofNat_toNat, BitVec.setWidth_eq]

/-! ### Maps that go through exclusive or -/

/-- `f` is linear over exclusive or (R140). -/
def XorLinear {v w : Nat} (f : BitVec v → BitVec w) : Prop := Function.Semiconj₂ f HXor.hXor HXor.hXor

theorem XorLinear.map_xor {v w : Nat} {f : BitVec v → BitVec w} (hf : XorLinear f) (x y : BitVec v) :
    f (x ^^^ y) = f x ^^^ f y := hf x y

theorem XorLinear.map_zero {v w : Nat} {f : BitVec v → BitVec w} (hf : XorLinear f) : f 0#v = 0#w := by
  simpa using hf.map_xor 0#v 0#v

/-- The low `k + 1` bits are the low `k` bits and bit `k`. -/
theorem setWidth_succ_eq_xor_twoPow {w : Nat} (x : BitVec w) (k : Nat) :
    (x.setWidth (k + 1)).setWidth w = (x.setWidth k).setWidth w ^^^ (x &&& BitVec.twoPow w k) := by
  ext i hi
  by_cases hik : i = k
  · subst hik
    simp [hi]
  · have hlt : i < k + 1 ↔ i < k := by omega
    simp [hik, hlt]

/-- Linear maps that agree on the words with one bit set are equal: by induction on the number of low bits looked at. -/
theorem XorLinear.eq_of_twoPow {v w : Nat} {f g : BitVec v → BitVec w} (hf : XorLinear f) (hg : XorLinear g)
    (h : ∀ i < v, f (BitVec.twoPow v i) = g (BitVec.twoPow v i)) (x : BitVec v) : f x = g x := by
  have hlow (k : Nat) (hk : k ≤ v) : f ((x.setWidth k).setWidth v) = g ((x.setWidth k).setWidth v) := by
    induction k with
    | zero => rw [BitVec.of_length_zero (x := x.setWidth 0), BitVec.setWidth_zero, hf.map_zero, hg.map_zero]
    | succ k ih =>
      rw [setWidth_succ_eq_xor_twoPow, hf.map_xor, hg.map_xor, ih (Nat.le_of_succ_le hk), BitVec.and_twoPow]
      split
      · rw [h k hk]
      · rw [hf.map_zero, hg.map_zero]
  simpa using hlow v le_rfl

/-! ### The byte step is linear -/

/-- The share in the new accumulator of `t`, the byte absorbed into the low byte of the old one (R131). -/
def crcMix (t : Byte) : Word16 :=
  let w : Word16 := (t ^^^ (t <<< 4)).setWidth 16
  (w <<< 8) ^^^ (w <<< 3) ^^^ (w >>> 4)

theorem crcStep_eq_crcMix (acc : Word16) (b : Byte) :
    crcStep acc b = (acc >>> 8) ^^^ crcMix (b ^^^ acc.setWidth 8) := by
  simp only [crcStep, crcMix, BitVec.xor_assoc]

/-- Each operation in `crcMix` is a shift, an extension or an exclusive or (R140). -/
theorem crcMix_xorLinear : XorLinear crcMix := by
  intro t t'
  simp only [crcMix, BitVec.shiftLeft_xor_distrib, BitVec.ushiftRight_xor_distrib, BitVec.setWidth_xor]
  ac_rfl

theorem crcStep_xor (a a' : Word16) (b b' : Byte) :
    crcStep (a ^^^ a') (b ^^^ b') = crcStep a b ^^^ crcStep a' b' := by
  have hmix : (b ^^^ b') ^^^ (a ^^^ a').setWidth 8 = (b ^^^ a.setWidth 8) ^^^ (b' ^^^ a'.setWidth 8) := by
    rw [BitVec.setWidth_xor]
    ac_rfl
  simp only [crcStep_eq_crcMix, hmix, crcMix_xorLinear.map_xor, BitVec.ushiftRight_xor_distrib]
  ac_rfl

/-- A byte is absorbed into the low byte of the accumulator and does not touch the high one (R140). -/
theorem crcStep_eq_crcStep_zero (acc : Word16) (b : Byte) : crcStep acc b = crcStep (acc ^^^ b.setWidth 16) 0 := by
  have hhigh : (acc ^^^ b.setWidth 16) >>> 8 = acc >>> 8 := by
    ext i hi
    simp
  have hlow : 0 ^^^ (acc ^^^ b.setWidth 16).setWidth 8 = b ^^^ acc.setWidth 8 := by
    simp [BitVec.xor_comm]
  rw [crcStep_eq_crcMix, crcStep_eq_crcMix, hhigh, hlow]

/-- Settles O21: the step is the high byte, exclusive or the linear mixing of the low byte and the input. -/
theorem stepIsLinear : Obligations.StepIsLinear := by
  unfold Obligations.StepIsLinear
  exact ⟨by decide, crcStep_xor, crcStep_eq_crcStep_zero⟩

/-! ### The bit-serial form -/

/-- What one bit-serial iteration adds for the bit shifted out (R139). -/
def bitFeedback (c : Bool) : Word16 := if c then 0x8408 else 0

theorem bitFeedback_xor : ∀ c d : Bool, bitFeedback (c ^^ d) = bitFeedback c ^^^ bitFeedback d := by decide

theorem bitStep_eq_bitFeedback (acc : Word16) : bitStep acc = (acc >>> 1) ^^^ bitFeedback (acc.getLsbD 0) := by
  unfold bitStep bitFeedback
  split
  · rfl
  · exact BitVec.xor_zero.symm

theorem bitStep_xorLinear : XorLinear bitStep := by
  intro x y
  simp only [bitStep_eq_bitFeedback, BitVec.ushiftRight_xor_distrib, BitVec.getLsbD_xor, bitFeedback_xor]
  ac_rfl

theorem bitSerial_eq_iterate (acc : Word16) (b : Byte) : bitSerial acc b = bitStep^[8] (acc ^^^ b.setWidth 16) := rfl

/-- Without an input byte both forms are linear in the accumulator, so its sixteen single bits decide (R139). -/
theorem crcStep_zero_eq_iterate (acc : Word16) : crcStep acc 0 = bitStep^[8] acc :=
  XorLinear.eq_of_twoPow (f := (crcStep · 0)) (fun x y => crcStep_xor x y 0 0) (bitStep_xorLinear.iterate 8)
    (by decide) acc

/-- Settles O20: both forms absorb the byte by exclusive or, and then agree. -/
theorem stepEqualsBitSerialForm : Obligations.StepEqualsBitSerialForm := by
  unfold Obligations.StepEqualsBitSerialForm
  intro acc b
  rw [crcStep_eq_crcStep_zero, crcStep_zero_eq_iterate, bitSerial_eq_iterate]

/-! ### The zero residue -/

theorem lowByte_eq_setWidth (w : Word16) : lowByte w = w.setWidth 8 :=
  (BitVec.setWidth_eq_extractLsb' (by decide)).symm

theorem highByte_eq_lowByte_shift (w : Word16) : highByte w = lowByte (w >>> 8) := by
  rw [lowByte_eq_setWidth, BitVec.setWidth_ushiftRight_eq_extractLsb, highByte]

/-- Absorbing the accumulator's own low byte only shifts it out (R141). -/
theorem crcStep_lowByte (acc : Word16) : crcStep acc (lowByte acc) = acc >>> 8 := by
  rw [crcStep_eq_crcMix, lowByte_eq_setWidth, BitVec.xor_self, crcMix_xorLinear.map_zero, BitVec.xor_zero]

/-- Absorbing the accumulator's two bytes, low byte first, shifts out all of it (R141). -/
theorem crcStep_lowByte_highByte (acc : Word16) : crcStep (crcStep acc (lowByte acc)) (highByte acc) = 0 := by
  rw [crcStep_lowByte, highByte_eq_lowByte_shift, crcStep_lowByte, ← BitVec.shiftRight_add]
  exact BitVec.ushiftRight_eq_zero (by decide)

theorem crc_withCrc16a (data : List Byte) : crc (withCrc16a data) = 0 := by
  calc crc (withCrc16a data)
    _ = crcFold (crc data) (crc16a data) := List.foldl_append
    _ = 0 := crcStep_lowByte_highByte (crc data)

/-! ### The operations -/

/-- An instruction that is a host write is turned away while BUSY as R71 says; what is left to say is its word and its
effect. -/
theorem hostOperation_of_hostWrite {w : Word16} {i : Instr} {f effect : State → State} (hi : i.wellFormed = true)
    (hw : encode i = .wr w) (hexec : exec i = hostWrite f) (heffect : ∀ s, f s = effect s) :
    HostOperation w i effect := by
  refine ⟨hw ▸ decode_encode hi, fun s hp => ?idle, fun s hp => ?busy⟩
  case idle => rw [hexec, hostWrite_idle f hp, heffect]
  case busy => rw [hexec, hostWrite_busy f hp, flag_eq_of_mask0 rfl, ErrKind.mask1]

/-- Settles O17: CRC.UPD's step is the document's. -/
theorem crcAccumulates : Obligations.CrcAccumulates := by
  unfold Obligations.CrcAccumulates
  refine ⟨hostOperation_of_hostWrite rfl rfl rfl fun _ => rfl, fun b => ?_⟩
  refine hostOperation_of_hostWrite rfl rfl rfl fun s => ?_
  rw [crcStep_eq_ofNat]

theorem exec_crcBlk : exec .crcBlk = hostWrite fun s => { s with crcAcc := crc s.dbuf } := rfl

/-- DBUF holds 254 bytes, so two more fit up to 252 (R40, R138). -/
theorem exec_crcApp : exec .crcApp = hostWrite fun s =>
    if s.dbuf.length ≤ 252 then { s with dbuf := s.dbuf ++ [lowByte s.crcAcc, highByte s.crcAcc] }
    else s.flag .dbufOvf := by
  have hfit (s : State) : bufferCapacity < s.dbuf.length + 2 ↔ ¬ s.dbuf.length ≤ 252 := by
    unfold bufferCapacity
    omega
  funext s
  simp only [exec, execCrcApp, hfit, ite_not]

/-- Settles O18: the fold over DBUF is the document's. -/
theorem crcBlkFoldsTheBuffer : Obligations.CrcBlkFoldsTheBuffer := by
  unfold Obligations.CrcBlkFoldsTheBuffer
  refine hostOperation_of_hostWrite rfl rfl exec_crcBlk fun s => ?_
  rw [crc_eq_ofNat]

/-- Settles O19: CRC.APP's bytes are the accumulator's remainder and quotient by 256. -/
theorem crcAppAppendsLowThenHigh : Obligations.CrcAppAppendsLowThenHigh := by
  unfold Obligations.CrcAppAppendsLowThenHigh
  refine hostOperation_of_hostWrite rfl rfl exec_crcApp fun s => ?_
  rw [byteOf_mod_eq_lowByte, byteOf_div_eq_highByte, flag_eq_of_mask0 rfl, ErrKind.mask1]

theorem exec_crcBlk_idle {s : State} (hp : s.phase = .idle) : exec .crcBlk s = .next { s with crcAcc := crc s.dbuf } := by
  rw [exec_crcBlk, hostWrite_idle _ hp]

theorem exec_crcApp_idle {s : State} (hp : s.phase = .idle) (hfit : s.dbuf.length ≤ 252) :
    exec .crcApp s = .next { s with dbuf := s.dbuf ++ [lowByte s.crcAcc, highByte s.crcAcc] } := by
  rw [exec_crcApp, hostWrite_idle _ hp, if_pos hfit]

/-- CRC.BLK and CRC.APP leave `with_crc16a` of the message in DBUF (R100, R132). -/
theorem execAll_crcBlk_crcApp {s : State} (hp : s.phase = .idle) (hfit : s.dbuf.length ≤ 252) (is : List Instr) :
    execAll (.crcBlk :: .crcApp :: is) s = execAll is { s with dbuf := withCrc16a s.dbuf, crcAcc := crc s.dbuf } := by
  rw [execAll_cons (exec_crcBlk_idle hp), execAll_cons (exec_crcApp_idle (s := { s with crcAcc := crc s.dbuf }) hp hfit),
    withCrc16a, crc16a]

/-- Settles O22: the second CRC.BLK computes the zero residue of what the first and CRC.APP left in DBUF. -/
theorem zeroResidue : Obligations.ZeroResidue := by
  unfold Obligations.ZeroResidue
  refine ⟨crc_withCrc16a, fun s hp hfit => ?_⟩
  have hrun : execAll [.crcBlk, .crcApp, .crcBlk] s =
      .next { s with dbuf := withCrc16a s.dbuf, crcAcc := crc (withCrc16a s.dbuf) } := by
    rw [execAll_crcBlk_crcApp hp hfit,
      execAll_cons (exec_crcBlk_idle (s := { s with dbuf := withCrc16a s.dbuf, crcAcc := crc s.dbuf }) hp), execAll_nil]
  exact ⟨_, hrun, crc_withCrc16a s.dbuf⟩

end Sys2Proof.Machine
end

section
/-! PROOF. The framer: the sequencer's step in TX_CMD for every sequence, the start steps of FRM.ENC, FRM.ACK and TX.RAW,
and the runs that hand a whole sequence to the transport (41_framer.md R152 to R154, 10_state.md R34). -/

namespace Sys2Proof.Machine

open Sys2Proof.Spec

/-! ### The step of a write phase -/

/-- The byte offered in TX_CMD is the one at TXI of the sequence being written (R22, R152). -/
theorem txData_of_txBytes {s : State} {bs : List Byte} (hp : s.phase = .txCmd) (hs : s.txBytes = some bs) :
    s.txData = bs[s.txi.toNat]? := by
  rw [State.txData, State.txValid, hp, hs]
  rfl

/-- While the transport accepts nothing, a write phase moves nothing (R152, R185). -/
theorem seqStep_write_stalled {s : State} (hp : s.phase = .txCmd ∨ s.phase = .txAck) (hr : s.txReady = false) :
    seqStep s = .next s := by
  obtain hp | hp := hp <;> exact seqStep_disabled (by rw [seqEnabled, hp, hr])

/-- A write step hands over the byte at TXI of its sequence. -/
theorem writeStep_of_txBytes {s : State} {bs : List Byte} {b : Byte} (hs : s.txBytes = some bs)
    (hb : bs[s.txi.toNat]? = some b) (advance : Byte → State → Outcome) : writeStep advance s = advance b s := by
  simp only [writeStep, hs, hb]

/-- The sequencer's step in TX_CMD when the transport accepts a byte (R152). -/
theorem seqStep_txCmd {s : State} {bs : List Byte} {b : Byte} (hp : s.phase = .txCmd) (hr : s.txReady = true)
    (hs : s.txBytes = some bs) (hb : bs[s.txi.toNat]? = some b) : seqStep s = .next (txCmdAdvance b s) := by
  rw [seqStep_enabled (by rw [seqEnabled, hp, hr]), seqMove, hp]
  exact writeStep_of_txBytes hs hb _

/-- `s` with the byte `b` handed over in TX_CMD, before the step looks for the end (R152). -/
def handedOver (b : Byte) (s : State) : State := { txByte b s with txi := s.txi + 1, sum := sumAfterTx s b }

/-- The end of TX_CMD: IDLE, or for XACT `Enter(RD_ACK, 6)` (R152, R200). -/
def endTx (s : State) : State := if s.opsel = .xact then enter .rdAck 6 s else { s with phase := .idle }

/-- The step of TX_CMD: the byte, and with the last one the end. -/
theorem txCmdAdvance_eq (b : Byte) (s : State) :
    txCmdAdvance b s = if s.txi + 1 = s.txn then endTx (handedOver b s) else handedOver b s := rfl

/-- SUM after a byte, with the sum on integers (R34, log 17). -/
theorem sumAfterTx_eq_byteOf (b : Byte) (s : State) :
    sumAfterTx s b = if s.txsel = .frame ∧ 6 ≤ s.txi.toNat ∧ s.txi.toNat < 6 + s.dbuf.length
      then byteOf (s.sum.toNat + b.toNat) else s.sum := by
  rw [byteOf_add, byteOf_toNat, byteOf_toNat, sumAfterTx]

/-- The step of TX_CMD as the rules state it, whichever the operation and the sequence. -/
theorem transmitStep_of_txBytes (op : OpSel) {sel : TxSel} {bytes : State → List Byte}
    (hbytes : ∀ s : State, s.phase = .txCmd → s.txsel = sel → s.dbuf.length ≤ 254 → s.txBytes = some (bytes s)) :
    TransmitStep op sel bytes := by
  intro s b hp hop hsel hl hb
  refine ⟨fun hr => ?_, seqStep_write_stalled (.inl hp)⟩
  rw [seqStep_txCmd hp hr (hbytes s hp hsel hl) hb, txCmdAdvance_eq, endTx, enter_pos (by decide), handedOver,
    sumAfterTx_eq_byteOf]
  simp only [ne_eq, ite_not, txByte, hop, hsel]
  rfl

/-! ### The sequences -/

theorem txBytes_frame {s : State} (hp : s.phase = .txCmd) (hs : s.txsel = .frame) (hl : s.dbuf.length ≤ 254) :
    s.txBytes = some (encodeFrame s.dbuf) := by
  simp only [State.txBytes, hp, hs, bufferCapacity, if_pos hl]

theorem txBytes_ack {s : State} (hs : s.txsel = .ack) : s.txBytes = some ackBytes := by
  unfold State.txBytes
  rw [hs]
  cases s.phase <;> rfl

theorem txBytes_raw {s : State} (hp : s.phase = .txCmd) (hs : s.txsel = .raw) : s.txBytes = some s.dbuf := by
  simp only [State.txBytes, hp, hs]

/-! ### The start steps -/

theorem exec_frmEnc : exec .frmEnc = hostWrite fun s =>
    startTx .transmit .frame (s.dbuf.length + 8) { s with reqOp := s.dbuf.headD s.reqOp, sum := tfiHost } := by
  funext s
  simp only [exec, execFrmEnc, latchReqOp_eq, List.headD_eq_head?_getD]
  rfl

theorem exec_frmAck : exec .frmAck = hostWrite (startTx .transmit .ack 6) := rfl

/-- With DBUF empty TX.RAW has nothing to write and stays in IDLE (R154). -/
theorem exec_txRaw : exec .txRaw = hostWrite fun s =>
    if s.dbuf = [] then { startTx .transmit .raw s.dbuf.length s with phase := .idle }
    else startTx .transmit .raw s.dbuf.length s := rfl

/-- Settles O24: FRM.ENC's start step latches the opcode as `headD` does, and TX_CMD writes the frame. -/
theorem frmEncStartsAndSteps : Obligations.FrmEncStartsAndSteps := by
  unfold Obligations.FrmEncStartsAndSteps
  exact ⟨hostOperation_of_hostWrite rfl rfl exec_frmEnc fun _ => rfl,
    transmitStep_of_txBytes .transmit fun _ => txBytes_frame⟩

/-- Settles O25: both start steps are host writes, and TX_CMD writes the ACK sequence or DBUF. -/
theorem ackAndRawStartAndStep : Obligations.AckAndRawStartAndStep := by
  unfold Obligations.AckAndRawStartAndStep
  refine ⟨hostOperation_of_hostWrite rfl rfl exec_frmAck fun _ => rfl,
    transmitStep_of_txBytes .transmit fun _ _ hs _ => txBytes_ack hs,
    hostOperation_of_hostWrite rfl rfl exec_txRaw fun s => ?_,
    transmitStep_of_txBytes .transmit fun _ hp hs _ => txBytes_raw hp hs⟩
  by_cases hb : s.dbuf = []
  · rw [if_pos hb, if_pos hb]
    rfl
  · rw [if_neg hb, if_neg hb]
    rfl

/-! ### The checksum byte -/

/-- The byte of a frame behind the data bytes is the checksum (R95, R151). -/
theorem encodeFrame_getElem?_checksum (data : List Byte) :
    (encodeFrame data)[6 + data.length]? = some (frameDcs tfiHost data) := by
  have hsplit : encodeFrame data = ([0x00, 0x00, 0xFF, frameLen data, frameLcs data, tfiHost] ++ data) ++
      [frameDcs tfiHost data, 0x00] := rfl
  have hlength : ([0x00, 0x00, 0xFF, frameLen data, frameLcs data, tfiHost] ++ data).length = 6 + data.length := by
    simp only [List.length_append, List.length_cons, List.length_nil]
  rw [hsplit, ← hlength, List.getElem?_append_right (Nat.le_refl _), Nat.sub_self, List.getElem?_cons_zero]

/-- The two's complement is the difference to 256 (R102, R103). -/
theorem twosComplement_eq_byteOf (x : Byte) : twosComplement x = byteOf (256 - x.toNat) := by
  unfold twosComplement byteOf
  bv_omega

/-- Settles O28: with all data written SUM is the sum that the frame's DCS complements. -/
theorem runningSumMakesTheChecksum : Obligations.RunningSumMakesTheChecksum := by
  unfold Obligations.RunningSumMakesTheChecksum
  intro s hinv hp hs hi
  have hw : Writing s := (phaseInv_txCmd hp).1 hinv.phase
  have hl : s.dbuf.length ≤ 254 := ((memory_wf_iff s).1 hinv.buffers).1
  have hsum : s.sum = tfiHost + byteSum s.dbuf := by
    rw [hw.running hs, hi, Nat.add_sub_cancel_left, List.take_length]
    rfl
  rw [txData_of_txBytes hp (txBytes_frame hp hs hl), hi, encodeFrame_getElem?_checksum, frameDcs, ← hsum,
    twosComplement_eq_byteOf]

/-! ### Whole sequences -/

/-- A turn repeated, from the states before and after each of its steps. -/
theorem agentRun_replicate {a : Agent} {f : Nat → State} {n : Nat}
    (h : ∀ k < n, agentStep a (f k) = .next (f (k + 1))) : agentRun (List.replicate n a) (f 0) = .next (f n) := by
  induction n with
  | zero => rfl
  | succ n ih =>
    rw [List.replicate_succ', agentRun_append (ih fun k hk => h k (by omega)), agentRun_cons (h n (by omega)), agentRun_nil]

/-- SUM after `k` bytes of a write of TX_CMD that began in `s` (R34). -/
def sumAfter (k : Nat) (s : State) : Byte :=
  if s.txsel = .frame then tfiHost + (s.dbuf.take (k - 6)).sum else s.sum

/-- SUM after a whole frame (R34). -/
theorem sumAfter_frame {s : State} (hs : s.txsel = .frame) {n : Nat} (hn : s.dbuf.length + 6 ≤ n) :
    sumAfter n s = byteOf (0xD4 + natSum s.dbuf) := by
  rw [sumAfter, if_pos hs, List.take_of_length_le (by omega), byteOf_add, ← byteSum_eq_byteOf_natSum]
  rfl

/-- With the other sequences SUM stays. -/
theorem sumAfter_of_ne {s : State} (hs : s.txsel ≠ .frame) (k : Nat) : sumAfter k s = s.sum := if_neg hs

/-- `s` with the first `k` bytes of `bs` handed over to the transport. -/
def written (bs : List Byte) (k : Nat) (s : State) : State :=
  { s with txi := BitVec.ofNat 9 k, sum := sumAfter k s, txq := s.txq ++ bs.take k }

/-- A write of TX_CMD that has just begun, of the bytes `bs` (R152, R153, R154, R200). -/
structure Transmitting (bs : List Byte) (s : State) : Prop where
  phase : s.phase = .txCmd
  bytes : s.txBytes = some bs
  count : s.txn.toNat = bs.length
  index : s.txi = 0
  running : s.txsel = .frame → s.sum = tfiHost
  accepting : s.transport.txqDepth = .unbounded

/-- A start of a write phase, with SUM set for a frame (R152, R153, R154, R200). -/
theorem transmitting_startTx {op : OpSel} {sel : TxSel} {n : Nat} {bs : List Byte} {s : State}
    (hbytes : (startTx op sel n s).txBytes = some bs) (hn : n = bs.length) (hlt : n < 512)
    (hsum : sel = .frame → s.sum = tfiHost) (hd : s.transport.txqDepth = .unbounded) :
    Transmitting bs (startTx op sel n s) :=
  ⟨rfl, hbytes, (Nat.mod_eq_of_lt hlt).trans hn, rfl, hsum, hd⟩

theorem Transmitting.written_zero {bs : List Byte} {s : State} (h : Transmitting bs s) : written bs 0 s = s := by
  have hsum : sumAfter 0 s = s.sum := by
    unfold sumAfter
    split
    · rw [h.running ‹_›]
      rfl
    · rfl
  have hi : BitVec.ofNat 9 0 = s.txi := h.index.symm
  rw [written, hsum, hi, List.take_zero, List.append_nil]

theorem Transmitting.toNat_txi {bs : List Byte} {s : State} (h : Transmitting bs s) {k : Nat} (hk : k < bs.length) :
    (written bs k s).txi.toNat = k := by
  have hn := h.count
  simp only [written, BitVec.toNat_ofNat]
  omega

/-- SUM after one byte more (R34). -/
theorem Transmitting.sumAfterTx_written {bs : List Byte} {s : State} (h : Transmitting bs s) {k : Nat}
    (hk : k < bs.length) : sumAfterTx (written bs k s) bs[k] = sumAfter (k + 1) s := by
  by_cases hs : s.txsel = .frame
  · have hi := h.toNat_txi hk
    have hb : (written bs k s).txData = some bs[k] := by
      rw [txData_of_txBytes (s := written bs k s) h.phase h.bytes, hi, List.getElem?_eq_getElem hk]
    have hsum : (written bs k s).sum = tfiHost + (s.dbuf.take ((written bs k s).txi.toNat - 6)).sum := by
      rw [hi, written, sumAfter, if_pos hs]
    rw [sumAfterTx_frame (s := written bs k s) hs (txData_frame h.phase hs hb) hsum, hi, sumAfter, if_pos hs]
    rfl
  · rw [sumAfterTx, if_neg fun hc => hs hc.1, written, sumAfter_of_ne hs, sumAfter_of_ne hs]

/-- One byte more. -/
theorem Transmitting.handedOver_written {bs : List Byte} {s : State} (h : Transmitting bs s) {k : Nat}
    (hk : k < bs.length) : handedOver bs[k] (written bs k s) = written bs (k + 1) s := by
  rw [handedOver, h.sumAfterTx_written hk]
  simp only [written, txByte, List.append_assoc, List.take_append_getElem, BitVec.ofNat_add]
  rfl

/-- Each byte's step, the last one's with the end of the write (R152). -/
theorem Transmitting.seqStep_written {bs : List Byte} {s : State} (h : Transmitting bs s) {k : Nat} (hk : k < bs.length) :
    seqStep (written bs k s) =
      .next (if k + 1 = bs.length then endTx (written bs (k + 1) s) else written bs (k + 1) s) := by
  have hi := h.toNat_txi hk
  have hlast : (written bs k s).txi + 1 = s.txn ↔ k + 1 = bs.length := by
    have hn := h.count
    bv_omega
  rw [seqStep_txCmd (s := written bs k s) h.phase (txReady_unbounded h.accepting) h.bytes
      (by rw [hi, List.getElem?_eq_getElem hk]),
    txCmdAdvance_eq, h.handedOver_written hk]
  exact congrArg Host.Outcome.next (if_congr hlast rfl rfl)

/-- The whole sequence reaches an accepting transport, one byte a step, and ends the write (R152, R200). -/
theorem Transmitting.agentRun_endTx {bs : List Byte} {s : State} (h : Transmitting bs s) {n : Nat} (hn : n = bs.length)
    (hpos : n ≠ 0) : agentRun (List.replicate n .sequencer) s = .next (endTx (written bs n s)) := by
  obtain ⟨m, rfl⟩ := Nat.exists_eq_succ_of_ne_zero hpos
  have hsteps : ∀ k < m, agentStep .sequencer (written bs k s) = .next (written bs (k + 1) s) := fun k hk => by
    rw [agentStep, h.seqStep_written (by omega), if_neg (by omega)]
  have hlast : agentStep .sequencer (written bs m s) = .next (endTx (written bs (m + 1) s)) := by
    rw [agentStep, h.seqStep_written (by omega), if_pos hn]
  have hrun := agentRun_replicate hsteps
  rw [h.written_zero] at hrun
  rw [List.replicate_succ', agentRun_append hrun, agentRun_cons hlast, agentRun_nil]

/-- A transmit-only operation leaves the block idle (R152). -/
theorem Transmitting.agentRun_idle {bs : List Byte} {s : State} (h : Transmitting bs s) (hop : s.opsel = .transmit)
    {n : Nat} (hn : n = bs.length) (hpos : n ≠ 0) {x : Byte} (hsum : sumAfter n s = x) :
    agentRun (List.replicate n .sequencer) s =
      .next { s with phase := .idle, txi := BitVec.ofNat 9 n, sum := x, txq := s.txq ++ bs } := by
  have hx : (written bs n s).opsel ≠ .xact := fun hx => nomatch hop.symm.trans hx
  rw [h.agentRun_endTx hn hpos, endTx, if_neg hx, written, hsum, List.take_of_length_le hn.ge]

/-- Settles O26: the start step begins a write of the whole frame. -/
theorem frmEncSendsTheFrame : Obligations.FrmEncSendsTheFrame := by
  unfold Obligations.FrmEncSendsTheFrame
  intro s hp hl hd
  refine ⟨_, by rw [exec_frmEnc, hostWrite_idle _ hp], ?_⟩
  have hn : s.dbuf.length + 8 = (encodeFrame s.dbuf).length := (length_frameBytes tfiHost s.dbuf).symm
  have h := transmitting_startTx (op := .transmit) (sel := .frame)
    (s := { s with reqOp := s.dbuf.headD s.reqOp, sum := tfiHost }) (txBytes_frame rfl rfl hl) hn (by omega)
    (fun _ => rfl) hd
  have hall : s.dbuf.length + 6 ≤ s.dbuf.length + 8 := by omega
  rw [h.agentRun_idle rfl hn (by omega) (sumAfter_frame rfl hall), ← hp]
  rfl

/-- Settles O27: each start step begins a write of its sequence, but TX.RAW of an empty DBUF, which has none to make. -/
theorem ackAndRawReachTheTransport : Obligations.AckAndRawReachTheTransport := by
  unfold Obligations.AckAndRawReachTheTransport
  intro s hp hd
  refine ⟨⟨_, by rw [exec_frmAck, hostWrite_idle _ hp], ?ack⟩, fun hl =>
    ⟨_, by rw [exec_txRaw, hostWrite_idle _ hp], ?raw⟩⟩
  case ack =>
    have h : Transmitting ackBytes (startTx .transmit .ack 6 s) :=
      transmitting_startTx (txBytes_ack rfl) rfl (by decide) nofun hd
    rw [h.agentRun_idle (n := 6) rfl rfl (by decide) (sumAfter_of_ne (by simp) _), ← hp]
    rfl
  case raw =>
    by_cases hb : s.dbuf = []
    · have hn : BitVec.ofNat 9 s.dbuf.length = 0 := by rw [hb]; rfl
      have hq : s.txq ++ s.dbuf = s.txq := by rw [hb, List.append_nil]
      rw [if_pos hb, agentRun_sequencer_idle rfl, startTx, hn, hq, ← hp]
    · have h : Transmitting s.dbuf (startTx .transmit .raw s.dbuf.length s) :=
        transmitting_startTx (txBytes_raw rfl rfl) rfl (by omega) nofun hd
      rw [if_neg hb, h.agentRun_idle rfl rfl (mt List.length_eq_zero_iff.1 hb) (sumAfter_of_ne (by simp) _), ← hp]
      rfl

end Sys2Proof.Machine
end


section
/-! PROOF. FRM.DEC of `ACK ++ Reframe(data)`: the bytes of each read phase, the closing ACK, and the whole decode
(41_framer.md R156, 42_deframer.md R171 to R185). -/

namespace Sys2Proof.Machine

open Sys2Proof.Spec

/-! ### The steps of a decode -/

/-- A byte in RXQ is received by a read phase that wants one (R204). -/
theorem seqStep_receive {s : State} {b : Byte} {rest : List Byte} (hp : s.phase.isRead = true) (hc : s.cnt < s.need)
    (hq : s.rxq = b :: rest) : seqStep s = .next (receiveStep b rest s) := by
  have hs : seqEnabled s = true ∧ seqMove s = .next (readStep s) := by
    cases hs : s.phase with
    | idle | txCmd | txAck | drain => simp [hs, Phase.isRead] at hp
    | rdAck | rdHdr | rdPay | rdDcs | rdPost => simp [seqEnabled, seqMove, hs, hc, State.rxValid, hq]
  rw [seqStep_enabled hs.1, hs.2, readStep, hq]

/-- The sequencer's step in TX_ACK when the transport accepts a byte (R185). -/
theorem seqStep_txAck {s : State} {b : Byte} (hp : s.phase = .txAck) (hr : s.txReady = true)
    (hb : ackBytes[s.txi.toNat]? = some b) : seqStep s = txAckAdvance b s := by
  have hs : s.txBytes = some ackBytes := by rw [State.txBytes, hp]
  rw [seqStep_enabled (by rw [seqEnabled, hp, hr]), seqMove, hp]
  exact writeStep_of_txBytes hs hb _

theorem agentRun_singleton (a : Agent) (s : State) : agentRun [a] s = agentStep a s := by
  rw [agentRun]
  cases agentStep a s <;> rfl

/-- A byte before the last is only stored and counted. -/
theorem receiveStep_of_ne {s : State} (h : s.cnt + 1 ≠ s.need) (b : Byte) (rest : List Byte) :
    receiveStep b rest s = stored b rest s := by
  rw [receiveStep_eq, stored_cnt, stored_need, if_neg h]

/-- The last byte of a phase completes it. -/
theorem receiveStep_of_eq {s : State} (h : s.cnt + 1 = s.need) (b : Byte) (rest : List Byte) :
    receiveStep b rest s = complete b (stored b rest s) := by
  rw [receiveStep_eq, stored_cnt, stored_need, if_pos h]

/-! ### The bytes of a read phase -/

/-- `s` with the bytes `bs` stored and counted, one after the other. -/
def storedAll : List Byte → State → State
  | [], s => s
  | b :: bs, s => storedAll bs (stored b s.rxq.tail s)

/-- A read phase that finds all its bytes in RXQ stores them and completes (R204). -/
theorem agentRun_phase {bs rest : List Byte} {b : Byte} {s : State} (hp : s.phase.isRead = true)
    (hn : s.cnt.toNat + bs.length + 1 = s.need.toNat) (hq : s.rxq = bs ++ b :: rest) :
    agentRun (List.replicate (bs.length + 1) .sequencer) s = .next (complete b (storedAll (bs ++ [b]) s)) := by
  have hc : s.cnt < s.need := by bv_omega
  induction bs generalizing s with
  | nil =>
    have hlast : s.cnt + 1 = s.need := by
      rw [List.length_nil] at hn
      bv_omega
    have hstep : agentStep .sequencer s = .next (complete b (stored b rest s)) := by
      rw [agentStep, seqStep_receive hp hc hq, receiveStep_of_eq hlast]
    have htail : s.rxq.tail = rest := by rw [hq]; rfl
    rw [List.length_nil, List.replicate_one, agentRun_cons hstep, agentRun_nil, List.nil_append, storedAll, htail,
      storedAll]
  | cons c bs ih =>
    rw [List.length_cons] at hn
    rw [List.cons_append] at hq
    have hne : s.cnt + 1 ≠ s.need := by bv_omega
    have hstep : agentStep .sequencer s = .next (stored c (bs ++ b :: rest) s) := by
      rw [agentStep, seqStep_receive hp hc hq, receiveStep_of_ne hne]
    have htail : s.rxq.tail = bs ++ b :: rest := by rw [hq]; rfl
    rw [List.length_cons, List.replicate_succ, agentRun_cons hstep, List.cons_append, storedAll, htail]
    refine ih (s := stored c (bs ++ b :: rest) s) (by rw [stored_phase, hp]) ?_ rfl ?_ <;>
      rw [stored_cnt, stored_need] <;> bv_omega

/-- The six bytes of RD_ACK or RD_HDR are staged in HBUF, and the last completes the phase (R172, R175). -/
theorem agentRun_header {p : Phase} (hp : p = .rdAck ∨ p = .rdHdr) {s : State} {b0 b1 b2 b3 b4 b5 : Byte}
    {rest : List Byte} (hq : s.rxq = [b0, b1, b2, b3, b4, b5] ++ rest) :
    agentRun (List.replicate 6 .sequencer) (loadPhase p 6 s) =
      .next (complete b5 { loadPhase p 6 s with hbuf := ⟨b0, b1, b2, b3, b4, b5⟩, cnt := 6, rxq := rest }) := by
  have hrxq : (loadPhase p 6 s).rxq = [b0, b1, b2, b3, b4] ++ b5 :: rest := hq
  have hall : storedAll [b0, b1, b2, b3, b4, b5] (loadPhase p 6 s) =
      { loadPhase p 6 s with hbuf := ⟨b0, b1, b2, b3, b4, b5⟩, cnt := 6, rxq := rest } := by
    obtain ⟨⟩ := s
    subst hq
    obtain rfl | rfl := hp <;> rfl
  rw [← hall]
  exact agentRun_phase (by obtain rfl | rfl := hp <;> rfl) rfl hrxq

/-- `Enter` overwrites the registers that belong to the phase (R203). -/
theorem enter_congr {p : Phase} {n : Byte} {s t : State} (h : loadPhase p n s = loadPhase p n t) :
    enter p n s = enter p n t := by
  unfold enter
  rw [h]

/-- `s` with the ACK sequence staged, `rest` being left in RXQ (R172). -/
def withAck (rest : List Byte) (s : State) : State :=
  { s with hbuf := ⟨0x00, 0x00, 0xFF, 0x00, 0xFF, 0x00⟩, rxq := rest }

/-- RD_ACK of the ACK sequence flags nothing (R172). -/
theorem agentRun_rdAck {s : State} {rest : List Byte} (hq : s.rxq = ackBytes ++ rest) :
    agentRun (List.replicate 6 .sequencer) (loadPhase .rdAck 6 s) =
      .next (loadPhase .rdHdr 6 (withAck rest s)) :=
  agentRun_header (.inl rfl) hq

/-- A header that passes the four checks enters the payload phase (R176 to R181). -/
theorem completeHdr_of_valid {s : State} (hstart : s.hbuf.start = startBytes) (hsum : s.hbuf.b3 + s.hbuf.b4 = 0)
    (htfi : s.hbuf.b5 = tfiDevice) (hlen : s.hbuf.b3 ≠ 0) :
    completeHdr s = enter .rdPay (s.hbuf.b3 - 1) { latchHdr s with sum := tfiDevice } :=
  (if_neg (not_not.2 hstart)).trans <| (if_neg (not_not.2 hsum)).trans <| (if_neg (not_not.2 htfi)).trans <| if_neg hlen

/-- `s` with a device's header for `data` received and latched, `rest` being left in RXQ (R175, R181). -/
def withHeader (data rest : List Byte) (s : State) : State :=
  { s with
    hbuf := ⟨0x00, 0x00, 0xFF, frameLen data, frameLcs data, tfiDevice⟩
    rxLen := frameLen data, rxLcs := frameLcs data, rxTfi := tfiDevice, sum := tfiDevice, rxq := rest }

/-- LEN counts the TFI beside the data (R101). -/
theorem frameLen_sub_one (data : List Byte) : frameLen data - 1 = byteOf data.length := by
  rw [frameLen, BitVec.ofNat_add]
  exact BitVec.add_sub_cancel _ _

/-- RD_HDR of the header of a device's frame (R175 to R181). -/
theorem agentRun_rdHdr {s : State} {data rest : List Byte} (hl : data.length ≤ 254)
    (hq : s.rxq = [0x00, 0x00, 0xFF, frameLen data, frameLcs data, tfiDevice] ++ rest) :
    agentRun (List.replicate 6 .sequencer) (loadPhase .rdHdr 6 s) =
      .next (enter .rdPay (byteOf data.length) (withHeader data rest s)) := by
  have hlen : frameLen data ≠ 0 := fun h => by
    have hn := toNat_frameLen hl
    rw [h] at hn
    exact absurd hn (by simp)
  have hvalid := completeHdr_of_valid rfl (add_twosComplement (frameLen data)) rfl hlen
    (s := { loadPhase .rdHdr 6 s with
      hbuf := ⟨0x00, 0x00, 0xFF, frameLen data, frameLcs data, tfiDevice⟩, cnt := 6, rxq := rest })
  rw [agentRun_header (.inr rfl) hq, ← frameLen_sub_one]
  exact congrArg Host.Outcome.next (hvalid.trans (enter_congr rfl))

/-- `s` with the payload bytes `bs` stored, summed up and counted, `rest` being left in RXQ (R182). -/
def withPayload (bs rest : List Byte) (s : State) : State :=
  { s with rbuf := s.rbuf ++ bs, sum := s.sum + bs.sum, cnt := s.cnt + byteOf bs.length, rxq := rest }

theorem withPayload_nil {s : State} {rest : List Byte} (hq : s.rxq = rest) : withPayload [] rest s = s := by
  have hsum : s.sum + [].sum = s.sum := BitVec.add_zero s.sum
  have hcnt : s.cnt + byteOf 0 = s.cnt := BitVec.add_zero s.cnt
  rw [withPayload, hsum, List.append_nil, List.length_nil, hcnt, ← hq]

theorem withPayload_cons (b : Byte) (bs rest rest' : List Byte) (s : State) :
    withPayload bs rest (withPayload [b] rest' s) = withPayload (b :: bs) rest s := by
  have hcnt : byteOf 1 + byteOf bs.length = byteOf (bs.length + 1) := by rw [← byteOf_add, Nat.add_comm]
  simp [withPayload, BitVec.add_assoc, hcnt]

/-- In RD_PAY a byte extends the payload (R182). -/
theorem stored_eq_withPayload {s : State} (hp : s.phase = .rdPay) (hl : s.rbuf.length = s.cnt.toNat)
    (hc : s.cnt.toNat < 254) (b : Byte) (rest : List Byte) : stored b rest s = withPayload [b] rest s := by
  obtain ⟨hb, hsum⟩ := stored_rdPay hp hl hc b rest
  have hone : [b].sum = b := List.sum_singleton
  rw [withPayload, hone, ← hb, ← hsum, stored, storeByte, hp]
  rfl

/-- In RD_PAY the bytes extend the payload one by one (R182). -/
theorem storedAll_rdPay {s : State} {bs rest : List Byte} (hp : s.phase = .rdPay) (hl : s.rbuf.length = s.cnt.toNat)
    (hfit : s.cnt.toNat + bs.length ≤ 254) (hq : s.rxq = bs ++ rest) : storedAll bs s = withPayload bs rest s := by
  induction bs generalizing s with
  | nil => exact (withPayload_nil hq).symm
  | cons b bs ih =>
    rw [List.length_cons] at hfit
    have htail : s.rxq.tail = bs ++ rest := by rw [hq]; rfl
    have hcnt : (withPayload [b] (bs ++ rest) s).cnt.toNat = s.cnt.toNat + 1 :=
      BitVec.toNat_add_of_lt (y := byteOf 1) (show s.cnt.toNat + 1 < 256 by omega)
    have hlen : (withPayload [b] (bs ++ rest) s).rbuf.length = s.rbuf.length + 1 := List.length_append
    rw [storedAll, htail, stored_eq_withPayload hp hl (by omega),
      ih (s := withPayload [b] (bs ++ rest) s) hp (by omega) (by omega) rfl, withPayload_cons]

/-- The bytes of RD_PAY are stored in RBUF and added into SUM, and the last enters RD_DCS; with none it is entered at
once (R182). -/
theorem agentRun_payload {s : State} {data rest : List Byte} (hl : data.length ≤ 254) (hb : s.rbuf = [])
    (hq : s.rxq = data ++ rest) : agentRun (List.replicate data.length .sequencer) (enter .rdPay (byteOf data.length) s) =
      .next (loadPhase .rdDcs 1 (withPayload data rest s)) := by
  obtain rfl | ⟨bs, b, rfl⟩ := List.eq_nil_or_concat' data
  · rw [withPayload_nil (rest := rest) hq]
    rfl
  · have hlen : (bs ++ [b]).length = bs.length + 1 := List.length_append
    have hn : (byteOf (bs.length + 1)).toNat = bs.length + 1 := Nat.mod_eq_of_lt (by omega)
    have hz : byteOf (bs.length + 1) ≠ 0 := by bv_omega
    have hcnt : (loadPhase .rdPay (byteOf (bs.length + 1)) s).cnt.toNat = 0 := rfl
    have hall := storedAll_rdPay (s := loadPhase .rdPay (byteOf (bs.length + 1)) s) rfl (by rw [loadPhase_rbuf, hb]; rfl)
      (by omega) hq
    rw [List.append_assoc] at hq
    have hrun := agentRun_phase (s := loadPhase .rdPay (byteOf (bs.length + 1)) s) rfl
      (by rw [loadPhase_need]; omega) hq
    rw [hlen, enter_pos hz, hrun, hall]
    rfl

/-- `s` with the checksum byte `b` latched, `rest` being left in RXQ (R183). -/
def withChecksum (b : Byte) (rest : List Byte) (s : State) : State := { s with rxDcs := b, rxq := rest }

/-- A checksum byte that makes the sum 0 enters RD_POST (R183). -/
theorem agentRun_rdDcs {s : State} {b : Byte} {rest : List Byte} (hq : s.rxq = b :: rest) (hsum : s.sum + b = 0) :
    agentRun (List.replicate 1 .sequencer) (loadPhase .rdDcs 1 s) =
      .next (loadPhase .rdPost 1 (withChecksum b rest s)) := by
  have htail : s.rxq.tail = rest := by rw [hq]; rfl
  have hlast : complete b (storedAll [b] (loadPhase .rdDcs 1 s)) =
      completeDcs b (storedAll [b] (loadPhase .rdDcs 1 s)) := rfl
  have hzero : (storedAll [b] (loadPhase .rdDcs 1 s)).sum + b = 0 := hsum
  have hrun := agentRun_phase (bs := []) (s := loadPhase .rdDcs 1 s) rfl rfl hq
  rw [List.nil_append, hlast, completeDcs, if_neg (not_not.2 hzero), enter_pos (by decide)] at hrun
  rw [← htail]
  exact hrun

/-- `s` at the start of TX_ACK, the postamble received and `rest` left in RXQ (R184). -/
def withPostamble (rest : List Byte) (s : State) : State :=
  { loadPhase .rdPost 1 s with rxq := rest, cnt := 1, txsel := .ack, txi := 0, txn := 6, phase := .txAck }

/-- A postamble byte 0x00 enters TX_ACK (R184). -/
theorem agentRun_rdPost {s : State} {rest : List Byte} (hq : s.rxq = 0x00 :: rest) :
    agentRun (List.replicate 1 .sequencer) (loadPhase .rdPost 1 s) = .next (withPostamble rest s) := by
  have htail : s.rxq.tail = rest := by rw [hq]; rfl
  rw [← htail]
  exact agentRun_phase (bs := []) (s := loadPhase .rdPost 1 s) rfl rfl hq

/-! ### The closing ACK -/

/-- `s` with the first `k` bytes of the closing ACK handed over. -/
def acked (k : Nat) (s : State) : State := { s with txi := BitVec.ofNat 9 k, txq := s.txq ++ ackBytes.take k }

/-- One byte of the closing ACK; the sixth ends the decode (R185). -/
theorem seqStep_acked {s : State} (hp : s.phase = .txAck) (hn : s.txn = 6) (hd : s.transport.txqDepth = .unbounded)
    {k : Nat} (hk : k < 6) : seqStep (acked k s) =
      if k + 1 = 6 then finishDecode (acked (k + 1) s) else .next (acked (k + 1) s) := by
  have hi : (acked k s).txi.toNat = k := Nat.mod_eq_of_lt (by omega)
  have hb : ackBytes[k]? = some ackBytes[k] := List.getElem?_eq_getElem hk
  have hlast : (acked k s).txi + 1 = s.txn ↔ k + 1 = 6 := by
    rw [hn]
    bv_omega
  have hnext : { txByte ackBytes[k] (acked k s) with txi := (acked k s).txi + 1 } = acked (k + 1) s := by
    rw [acked, txByte, List.append_assoc, List.take_append_getElem (l := ackBytes) hk, acked, BitVec.ofNat_add]
    rfl
  rw [seqStep_txAck (s := acked k s) hp (txReady_unbounded hd) (by rw [hi, hb]), txAckAdvance, hnext]
  exact if_congr (hnext ▸ hlast) rfl rfl

/-- The six bytes of the closing ACK reach an accepting transport, and the last ends the decode (R185). -/
theorem agentRun_txAck {s : State} (hp : s.phase = .txAck) (hi : s.txi = 0) (hn : s.txn = 6)
    (hd : s.transport.txqDepth = .unbounded) :
    agentRun (List.replicate 6 .sequencer) s = finishDecode (acked 6 s) := by
  have hsteps : ∀ k < 5, agentStep .sequencer (acked k s) = .next (acked (k + 1) s) := fun k hk => by
    rw [agentStep, seqStep_acked hp hn hd (by omega), if_neg (by omega)]
  have hzero : acked 0 s = s := by
    have hi' : BitVec.ofNat 9 0 = s.txi := hi.symm
    rw [acked, hi', List.take_zero, List.append_nil]
  have hrun := agentRun_replicate hsteps
  rw [hzero] at hrun
  rw [List.replicate_succ' (n := 5), agentRun_append hrun, agentRun_singleton, agentStep,
    seqStep_acked hp hn hd (by decide), if_pos rfl]

/-! ### The whole decode -/

/-- `s` with the ACK and a device's frame of `data` received and answered with the ACK, `rest` being left in RXQ. -/
def decoded (data rest : List Byte) (s : State) : State :=
  acked 6 (withPostamble rest (withChecksum (frameDcs tfiDevice data) rest
    (withPayload data rest (withHeader data rest s))))

/-- From RD_ACK to the last step of TX_ACK (R172 to R185). -/
theorem agentRun_decode {s : State} {data rest : List Byte} (hl : data.length ≤ 254) (hb : s.rbuf = [])
    (hd : s.transport.txqDepth = .unbounded) (hq : s.rxq = ackBytes ++ reframe data ++ rest) :
    agentRun (List.replicate (data.length + 20) .sequencer) (loadPhase .rdAck 6 s) =
      finishDecode (decoded data rest s) := by
  -- What RXQ holds when each phase after RD_ACK begins.
  obtain ⟨post, hpost⟩ : ∃ l, l = 0x00 :: rest := ⟨_, rfl⟩
  obtain ⟨dcs, hdcs⟩ : ∃ l, l = frameDcs tfiDevice data :: post := ⟨_, rfl⟩
  obtain ⟨pay, hpay⟩ : ∃ l, l = data ++ dcs := ⟨_, rfl⟩
  obtain ⟨hdr, hhdr⟩ : ∃ l, l = [0x00, 0x00, 0xFF, frameLen data, frameLcs data, tfiDevice] ++ pay := ⟨_, rfl⟩
  have hack : s.rxq = ackBytes ++ hdr := by simp [hq, hhdr, hpay, hdcs, hpost, reframe, frameBytes]
  have hsum : tfiDevice + data.sum + frameDcs tfiDevice data = 0 := add_twosComplement _
  have hsteps : data.length + 20 = 6 + (6 + (data.length + (1 + (1 + 6)))) := by omega
  rw [hsteps]
  simp only [List.replicate_add]
  rw [agentRun_append (agentRun_rdAck hack),
    agentRun_append (agentRun_rdHdr (s := withAck hdr s) hl hhdr),
    agentRun_append (agentRun_payload (s := withHeader data pay (withAck hdr s)) hl hb hpay),
    agentRun_append (agentRun_rdDcs (s := withPayload data dcs (withHeader data pay (withAck hdr s))) hdcs hsum),
    agentRun_append (agentRun_rdPost (s := withChecksum (frameDcs tfiDevice data) post
      (withPayload data dcs (withHeader data pay (withAck hdr s)))) hpost)]
  exact agentRun_txAck rfl rfl rfl hd

/-- FRM.DEC clears, latches and enters RD_ACK (R171). -/
theorem exec_frmDec : exec .frmDec = hostWrite fun s => loadPhase .rdAck 6 { clearForDecode s with opsel := .frmDec } := by
  funext s
  rw [exec, execFrmDec]
  simp only [enter_pos (show (6 : Byte) ≠ 0 by decide)]

/-- FRM.DEC ends with no echo check (R185). -/
theorem finishDecode_of_ne {s : State} (h : s.opsel ≠ .xact) :
    finishDecode s = .next { s with rlen := s.rxLen - 1, result := .ok, phase := .idle } := by
  rw [finishDecode, if_neg h, endOk]

/-- The device's checksum of the same data is one less than the host's, its TFI being one more (R95, R103). -/
theorem frameDcs_tfiDevice (data : List Byte) : frameDcs tfiDevice data = frameDcs tfiHost data - 1 := by
  have htfi : tfiDevice = tfiHost + 1 := rfl
  unfold frameDcs twosComplement
  rw [htfi]
  bv_omega

/-- Settles O42: the run of a whole decode, and the fields of both frames. -/
theorem roundTripRecoversTheData : Obligations.RoundTripRecoversTheData := by
  unfold Obligations.RoundTripRecoversTheData
  refine ⟨fun s data extra hp hl hd hq => ?_, fun data _ => ⟨frameLcs data, frameDcs tfiHost data, rfl, ?_⟩⟩
  · have hrun := agentRun_decode (s := { clearForDecode s with opsel := .frmDec }) hl rfl hd hq
    have hop : (decoded data extra { clearForDecode s with opsel := .frmDec }).opsel ≠ .xact := nofun
    have hrlen : (frameLen data - 1).toNat = data.length := by
      rw [frameLen_sub_one]
      exact Nat.mod_eq_of_lt (by omega)
    rw [finishDecode_of_ne hop] at hrun
    exact ⟨_, _, by rw [exec_frmDec, hostWrite_idle _ hp], hrun, rfl, rfl, hrlen, rfl, rfl, rfl, rfl, rfl, rfl, rfl, rfl,
      rfl, rfl⟩
  · rw [← frameDcs_tfiDevice]
    rfl

end Sys2Proof.Machine
end

section
/-! PROOF. The deframer step by step: the start of FRM.DEC, the receive step and the completion of each read phase, the
expire step, and the closing ACK with the echo check (42_deframer.md R171 to R185, 43_transaction.md R206, R211). -/

namespace Sys2Proof.Machine

open Sys2Proof.Spec

/-- Settles O29: the start step is a host write that clears, latches and enters RD_ACK. -/
theorem frmDecStarts : Obligations.FrmDecStarts := by
  unfold Obligations.FrmDecStarts
  exact hostOperation_of_hostWrite rfl rfl exec_frmDec fun _ => rfl

/-! ### The abort and the expire step -/

/-- An abort as R290 states it. -/
theorem raise_eq_aborted (k : ErrKind) (s : State) :
    raise k s = aborted k.mask0 k.mask1 (byteOf s.phase.code.toNat) s.cnt s := by
  rw [raise, aborted]
  cases s.phase <;> rfl

/-- A read phase has a step to make when it wants a byte and there is one, or its timer has run out (R204, R206). -/
theorem seqEnabled_of_isRead {s : State} (hp : s.phase.isRead = true) :
    seqEnabled s = (decide (s.cnt < s.need) && (s.rxValid || decide (s.timer = 0))) := by
  cases hs : s.phase with
  | idle | txCmd | txAck | drain => simp [hs, Phase.isRead] at hp
  | rdAck | rdHdr | rdPay | rdDcs | rdPost => rw [seqEnabled, hs]

theorem seqMove_of_isRead {s : State} (hp : s.phase.isRead = true) : seqMove s = .next (readStep s) := by
  cases hs : s.phase with
  | idle | txCmd | txAck | drain => simp [hs, Phase.isRead] at hp
  | rdAck | rdHdr | rdPay | rdDcs | rdPost => rw [seqMove, hs]

/-- With RXQ empty and the timer run out a read phase that wants a byte aborts with TIMEOUT (R206). -/
theorem seqStep_expire {s : State} (hp : s.phase.isRead = true) (hc : s.cnt < s.need) (hq : s.rxq = [])
    (ht : s.timer = 0) : seqStep s = .next (raise .timeout s) := by
  rw [seqStep_enabled (by simp [seqEnabled_of_isRead hp, hc, ht]), seqMove_of_isRead hp, readStep, hq]
  rfl

/-- With RXQ empty and the timer running a read phase waits (R206). -/
theorem seqStep_wait {s : State} (hp : s.phase.isRead = true) (hq : s.rxq = []) (ht : s.timer ≠ 0) :
    seqStep s = .next s := by
  refine seqStep_disabled ?_
  rw [seqEnabled_of_isRead hp, State.rxValid, hq, decide_eq_false ht]
  exact Bool.and_false _

/-- A kind of ERR0 leaves ERR1 (R281). -/
theorem flag_eq_of_mask1 {k : ErrKind} (hk : k.mask1 = 0x00) (s : State) :
    s.flag k = { s with err0 := s.err0 ||| k.mask0 } := by
  simp [State.flag, hk]

/-! ### RD_ACK and RD_HDR -/

/-- In RD_ACK and RD_HDR the byte goes to `HBUF[CNT]` (R172, R175). -/
theorem stored_header {s : State} (hp : s.phase = .rdAck ∨ s.phase = .rdHdr) (b : Byte) (rest : List Byte) :
    stored b rest s = { s with rxq := rest, hbuf := s.hbuf.set s.cnt b, cnt := s.cnt + 1 } := by
  obtain hp | hp := hp <;> simp only [stored, storeByte, hp]

/-- A byte before the sixth is only staged. -/
theorem seqStep_header_of_lt {s : State} {b : Byte} {rest : List Byte} (hp : s.phase = .rdAck ∨ s.phase = .rdHdr)
    (hn : s.need = 6) (hq : s.rxq = b :: rest) (hc : s.cnt < 5) :
    seqStep s = .next { s with rxq := rest, hbuf := s.hbuf.set s.cnt b, cnt := s.cnt + 1 } := by
  have hread : s.phase.isRead = true := by obtain hp | hp := hp <;> rw [hp] <;> rfl
  rw [seqStep_receive hread (by bv_omega) hq, receiveStep_of_ne (by bv_omega), stored_header hp]

/-- `s` with the sixth header byte `b` received (R172, R175). -/
def staged (b : Byte) (rest : List Byte) (s : State) : State :=
  { s with rxq := rest, hbuf := { s.hbuf with b5 := b }, cnt := 6 }

/-- The sixth byte completes the phase. -/
theorem seqStep_header_last {s : State} {b : Byte} {rest : List Byte} (hp : s.phase = .rdAck ∨ s.phase = .rdHdr)
    (hn : s.need = 6) (hq : s.rxq = b :: rest) (hc : s.cnt = 5) :
    seqStep s = .next (complete b (staged b rest s)) := by
  have hread : s.phase.isRead = true := by obtain hp | hp := hp <;> rw [hp] <;> rfl
  rw [seqStep_receive hread (by bv_omega) hq, receiveStep_of_eq (by rw [hc, hn]; rfl), stored_header hp, hc]
  rfl

/-- RD_HDR follows either way; a mismatch sets its flag alone (R172). -/
theorem completeAck_eq (s : State) :
    completeAck s = loadPhase .rdHdr 6 { s with
      err0 := if s.hbuf.bytes = ackBytes then s.err0 else s.err0 ||| 0x01 } := by
  rw [completeAck, enter_pos (by decide)]
  split
  · rfl
  · rw [flag_eq_of_mask1 rfl]
    rfl

/-- Settles O30: with the sixth byte HBUF is compared with the ACK sequence. -/
theorem ackMismatchIsTolerated : Obligations.AckMismatchIsTolerated := by
  unfold Obligations.AckMismatchIsTolerated
  intro s b rest hp hn hq
  refine ⟨seqStep_header_of_lt (.inl hp) hn hq, fun hc => ?_⟩
  have hcomplete : complete b (staged b rest s) = completeAck (staged b rest s) := by
    rw [complete, staged, hp]
  rw [seqStep_header_last (.inl hp) hn hq hc, hcomplete, completeAck_eq]
  rfl

/-- The sum of two bytes on unbounded integers (R177, R183). -/
theorem add_ne_zero_iff_mod (a b : Byte) : a + b ≠ 0 ↔ (a.toNat + b.toNat) % 256 ≠ 0 := by
  refine not_congr ?_
  rw [← byteOf_eq_zero_iff, byteOf_add, byteOf_toNat, byteOf_toNat]

/-- The first three bytes of a frame, one by one (R176). -/
theorem start_ne_iff (h : HBuf) : h.start ≠ startBytes ↔ ¬ (h.b0 = 0x00 ∧ h.b1 = 0x00 ∧ h.b2 = 0xFF) := by
  simp [HBuf.start, startBytes]

/-- `Enter(RD_PAY, LEN - 1)` for a LEN that is not 0; with LEN = 1 it enters RD_DCS (R181, R182). -/
theorem enter_rdPay_eq_reading {len : Byte} (h : len ≠ 0) (s : State) :
    enter .rdPay (len - 1) s =
      if len = 1 then reading .rdDcs 1 s else reading .rdPay (byteOf (len.toNat - 1)) s := by
  split
  case isTrue h1 =>
    rw [h1]
    rfl
  case isFalse h1 =>
    have hn : len - 1 = byteOf (len.toNat - 1) := by unfold byteOf; bv_omega
    rw [enter_pos (by bv_omega), hn]
    rfl

/-- The header's completion: the latches, then the first check that fails, or the next phase (R175 to R182). -/
theorem completeHdr_eq_of_phase {s : State} (hp : s.phase = .rdHdr) :
    completeHdr s =
      if ¬ (s.hbuf.b0 = 0x00 ∧ s.hbuf.b1 = 0x00 ∧ s.hbuf.b2 = 0xFF) then aborted 0x02 0x00 3 s.cnt (latchHdr s)
      else if (s.hbuf.b3.toNat + s.hbuf.b4.toNat) % 256 ≠ 0 then aborted 0x04 0x00 3 s.cnt (latchHdr s)
      else if s.hbuf.b5 ≠ 0xD5 then aborted 0x08 0x00 3 s.cnt (latchHdr s)
      else if s.hbuf.b3 = 0 then aborted 0x80 0x00 3 s.cnt (latchHdr s)
      else if s.hbuf.b3 = 1 then reading .rdDcs 1 { latchHdr s with sum := 0xD5 }
      else reading .rdPay (byteOf (s.hbuf.b3.toNat - 1)) { latchHdr s with sum := 0xD5 } := by
  have hraise (k : ErrKind) : raise k (latchHdr s) = aborted k.mask0 k.mask1 3 s.cnt (latchHdr s) := by
    rw [raise_eq_aborted, latchHdr, hp]
    rfl
  exact if_congr (start_ne_iff s.hbuf) (hraise _) <| if_congr (add_ne_zero_iff_mod _ _) (hraise _) <|
    if_congr Iff.rfl (hraise _) <| ite_congr rfl (fun _ => hraise _) fun h => enter_rdPay_eq_reading h _

/-- Settles O31: the sixth byte completes the header, whose checks are made on the latched fields. -/
theorem headerChecksInOrder : Obligations.HeaderChecksInOrder := by
  unfold Obligations.HeaderChecksInOrder
  intro s b rest hp hn hq
  refine ⟨seqStep_header_of_lt (.inr hp) hn hq, fun hc => ?_⟩
  have hcomplete : complete b (staged b rest s) = completeHdr (staged b rest s) := by
    rw [complete, staged, hp]
  rw [seqStep_header_last (.inr hp) hn hq hc, hcomplete]
  exact congrArg Host.Outcome.next (completeHdr_eq_of_phase (s := staged b rest s) hp)

/-! ### RD_PAY -/

/-- Settles O32: the byte stored extends the payload, and the last one enters RD_DCS. -/
theorem payloadBytesAreStored : Obligations.PayloadBytesAreStored := by
  unfold Obligations.PayloadBytesAreStored
  intro s b rest hp hc hfit hl hq
  have hread : s.phase.isRead = true := by rw [hp]; rfl
  have hstored : stored b rest s = { s with
      rxq := rest, rbuf := s.rbuf ++ [b], sum := byteOf (s.sum.toNat + b.toNat), cnt := s.cnt + 1 } := by
    obtain ⟨hbuf, hsum⟩ := stored_rdPay hp hl hfit b rest
    rw [byteOf_add, byteOf_toNat, byteOf_toNat, ← hbuf, ← hsum, stored, storeByte, hp]
  have hlast : s.cnt + 1 = s.need ↔ s.cnt.toNat + 1 = s.need.toNat := by bv_omega
  have hcomplete : complete b (stored b rest s) = reading .rdDcs 1 (stored b rest s) := by
    rw [complete, stored_phase, hp]
    exact enter_pos (by decide) _
  rw [seqStep_receive hread hc hq, receiveStep_eq, stored_cnt, stored_need, hcomplete, hstored]
  exact congrArg Host.Outcome.next (if_congr hlast rfl rfl)

/-! ### RD_DCS and RD_POST -/

/-- In RD_DCS the byte goes to RX_DCS (R183). -/
theorem stored_rdDcs {s : State} (hp : s.phase = .rdDcs) (b : Byte) (rest : List Byte) :
    stored b rest s = { s with rxq := rest, rxDcs := b, cnt := s.cnt + 1 } := by
  simp only [stored, storeByte, hp]

/-- In RD_POST the byte is stored nowhere (R184). -/
theorem stored_rdPost {s : State} (hp : s.phase = .rdPost) (b : Byte) (rest : List Byte) :
    stored b rest s = { s with rxq := rest, cnt := s.cnt + 1 } := by
  simp only [stored, storeByte, hp]

/-- Settles O33: each of the two phases reads one byte, which completes it, or expires without one. -/
theorem checksumAndPostambleAreChecked : Obligations.ChecksumAndPostambleAreChecked := by
  unfold Obligations.ChecksumAndPostambleAreChecked
  intro s hn hc
  have hwants : s.cnt < s.need := by rw [hn, hc]; decide
  have hlast : s.cnt + 1 = s.need := by rw [hn, hc]; rfl
  have hreceive (hp : s.phase.isRead = true) (b : Byte) (rest : List Byte) (hq : s.rxq = b :: rest) :
      seqStep s = .next (complete b (stored b rest s)) := by
    rw [seqStep_receive hp hwants hq, receiveStep_of_eq hlast]
  have hexpire (hp : s.phase.isRead = true) (hq : s.rxq = []) (ht : s.timer = 0) :
      seqStep s = .next (aborted 0x00 0x01 (byteOf s.phase.code.toNat) 0 s) := by
    rw [seqStep_expire hp hwants hq ht, raise_eq_aborted, hc]
    rfl
  refine ⟨fun b rest hq hp => ?dcs, fun b rest hq hp => ?post, fun hq ht hp => ?dcsTimeout, fun hq ht hp => ?postTimeout⟩
  case dcs =>
    have hcomplete : complete b (stored b rest s) = completeDcs b (stored b rest s) := by
      rw [complete, stored_phase, hp]
    have hraise : raise .dataChecksum (stored b rest s) = aborted 0x10 0x00 5 1 (stored b rest s) := by
      rw [raise_eq_aborted, stored_phase, stored_cnt, hp, hc]
      rfl
    rw [hreceive (by rw [hp]; rfl) b rest hq, hcomplete, completeDcs, hraise, stored_rdDcs hp, hc, enter_pos (by decide)]
    exact congrArg Host.Outcome.next (if_congr (add_ne_zero_iff_mod _ _) rfl rfl)
  case post =>
    have hcomplete : complete b (stored b rest s) = completePost b (stored b rest s) := by
      rw [complete, stored_phase, hp]
    have hraise : raise .postamble (stored b rest s) = aborted 0x20 0x00 6 1 (stored b rest s) := by
      rw [raise_eq_aborted, stored_phase, stored_cnt, hp, hc]
      rfl
    rw [hreceive (by rw [hp]; rfl) b rest hq, hcomplete, completePost, hraise, stored_rdPost hp, hc]
    rfl
  case dcsTimeout =>
    rw [hexpire (by rw [hp]; rfl) hq ht, hp]
    rfl
  case postTimeout =>
    rw [hexpire (by rw [hp]; rfl) hq ht, hp]
    rfl

/-! ### TX_ACK and the echo check -/

/-- The step of TX_ACK: the byte, and with the last one the end of the decode (R185). -/
theorem txAckAdvance_eq (b : Byte) (s : State) :
    txAckAdvance b s =
      if s.txi + 1 = s.txn then finishDecode { s with txq := s.txq ++ [b], txi := s.txi + 1 }
      else .next { s with txq := s.txq ++ [b], txi := s.txi + 1 } := rfl

/-- With no payload there is no opcode to compare (R211). -/
theorem echoCheck_empty {s : State} (hl : s.rlen = 0) :
    echoCheck s = .next { s with err0 := s.err0 ||| 0x40 } := by
  rw [echoCheck, if_pos hl, flag_eq_of_mask1 rfl]
  rfl

/-- The first byte is stripped into RSP_OP; one that is not REQ_OP + 1 is flagged (R211). -/
theorem echoCheck_cons {s : State} {op : Byte} {rest : List Byte} (hl : s.rlen ≠ 0) (hb : s.rbuf = op :: rest) :
    echoCheck s = .next { s with
      rspOp := op, rbuf := rest, rlen := s.rlen - 1
      err0 := if op.toNat = (s.reqOp.toNat + 1) % 256 then s.err0 else s.err0 ||| 0x40 } := by
  have hecho : op ≠ s.reqOp + 1 ↔ ¬ op.toNat = (s.reqOp.toNat + 1) % 256 := by bv_omega
  rw [echoCheck, if_neg hl, hb]
  dsimp only
  rw [if_congr hecho rfl rfl, ite_not, flag_eq_of_mask1 rfl]
  split <;> rfl

/-- XACT ends with the echo check of the response it shows (R185, R211). -/
theorem finishDecode_of_echoCheck {s t : State} (hop : s.opsel = .xact)
    (h : echoCheck { s with rlen := s.rxLen - 1 } = .next t) :
    finishDecode s = .next { t with result := .ok, phase := .idle } := by
  rw [finishDecode]
  dsimp only
  rw [if_pos hop, h, endOk]

/-- Settles O38: the sixth byte ends the decode, and for XACT the echo check is made on the response. -/
theorem closingAckAndEchoCheck : Obligations.ClosingAckAndEchoCheck := by
  unfold Obligations.ClosingAckAndEchoCheck
  intro s hp hn
  refine ⟨seqStep_write_stalled (.inr hp), fun hr k hk hi => ?before, fun hr hi => ?last⟩
  case before =>
    have hlength : k < ackBytes.length := Nat.lt_trans hk (by decide)
    have hb : ackBytes[k]? = some ackBytes[k] := List.getElem?_eq_getElem hlength
    refine ⟨ackBytes[k], hb, ?_⟩
    rw [seqStep_txAck hp hr (by rw [hi, hb]), txAckAdvance_eq, if_neg (by bv_omega)]
  case last =>
    have hi6 : s.txi + 1 = 6 := by bv_omega
    have hb : ackBytes[s.txi.toNat]? = some 0x00 := by rw [hi]; rfl
    have hstep : seqStep s = finishDecode { s with txq := s.txq ++ [0x00], txi := 6 } := by
      rw [seqStep_txAck hp hr hb, txAckAdvance_eq, hi6, if_pos hn.symm]
    have hend {t : State} (hop : s.opsel = .xact)
        (h : echoCheck { s with txq := s.txq ++ [0x00], txi := 6, rlen := s.rxLen - 1 } = .next t) :
        seqStep s = .next { t with result := .ok, phase := .idle } :=
      hstep.trans (finishDecode_of_echoCheck (s := { s with txq := s.txq ++ [0x00], txi := 6 }) hop h)
    refine ⟨fun hop => hstep.trans (finishDecode_of_ne hop), fun hop hl => ?empty, fun hop hl op rest hb => ?echo⟩
    case empty => rw [hend hop (echoCheck_empty (by rw [hl]; rfl))]
    case echo =>
      have hrlen : s.rxLen - 1 - 1 = s.rxLen - 2 := by bv_omega
      rw [hend hop (echoCheck_cons (by bv_omega) hb), hrlen]

end Sys2Proof.Machine
end

section
/-! PROOF. The steps of FRM.DEC refine the function `Decode`: whatever RXQ holds, each read phase ends as the part of the
listing from that phase on says (42_deframer.md R188, 43_transaction.md R203 to R206). -/

namespace Sys2Proof.Machine

open Sys2Proof.Spec

/-! ### A read phase that runs out of bytes -/

theorem agentRun_replicate_of_fixed {a : Agent} {s : State} (h : agentStep a s = .next s) (n : Nat) :
    agentRun (List.replicate n a) s = .next s :=
  agentRun_replicate (f := fun _ => s) fun _ _ => h

/-- Neither the sequencer nor a tick moves anything on an idle block (R20, R205). -/
theorem agentStep_idle {s : State} (hp : s.phase = .idle) :
    agentStep .sequencer s = .next s ∧ agentStep .timeBase s = .next s := by
  refine ⟨agentStep_sequencer_idle hp, ?_⟩
  rw [agentStep, tickStep, if_neg fun h => by simp [hp, Phase.isRead] at h]

/-- As many ticks as TIMER holds run the timer of a read phase out (R205). -/
theorem agentRun_ticks {s : State} (hp : s.phase.isRead = true) :
    agentRun (List.replicate s.timer.toNat .timeBase) s = .next { s with timer := 0 } := by
  generalize hn : s.timer.toNat = n
  induction n generalizing s with
  | zero =>
    have ht : s.timer = 0 := by bv_omega
    rw [← ht]
    rfl
  | succ n ih =>
    have htick : agentStep .timeBase s = .next { s with timer := s.timer - 1 } := by
      rw [agentStep, tickStep, if_pos ⟨hp, by bv_omega⟩]
    rw [List.replicate_succ, agentRun_cons htick]
    exact ih (s := { s with timer := s.timer - 1 }) hp (by dsimp only; bv_omega)

/-- The turns of a decode in `s`: `n` of the sequencer, as many ticks as a phase's timer counts, and one more of the
sequencer, in which a phase that has run out of bytes expires. -/
def turns (n : Nat) (s : State) : List Agent :=
  List.replicate n .sequencer ++ List.replicate s.tlatch.toNat .timeBase ++ [.sequencer]

/-- The first turns, taken apart. -/
theorem agentRun_turns {k n : Nat} {s u : State} (hk : k ≤ n) (hrun : agentRun (List.replicate k .sequencer) s = .next u)
    (hl : u.tlatch = s.tlatch) : agentRun (turns n s) s = agentRun (turns (n - k) u) u := by
  obtain ⟨m, rfl⟩ := Nat.exists_eq_add_of_le hk
  rw [turns, List.replicate_add, List.append_assoc, List.append_assoc, agentRun_append hrun, Nat.add_sub_cancel_left,
    turns, hl, List.append_assoc]

/-- On an idle block the turns change nothing. -/
theorem agentRun_turns_idle {s : State} (hp : s.phase = .idle) (n : Nat) : agentRun (turns n s) s = .next s := by
  obtain ⟨hseq, htick⟩ := agentStep_idle hp
  rw [turns, List.append_assoc, agentRun_append (agentRun_replicate_of_fixed hseq _),
    agentRun_append (agentRun_replicate_of_fixed htick _), agentRun_singleton, hseq]

/-- A read phase with no byte left waits, its timer runs out, and it aborts with TIMEOUT (R206). -/
theorem agentRun_turns_expire {s : State} (hp : s.phase.isRead = true) (hc : s.cnt < s.need) (hq : s.rxq = [])
    (ht : s.timer = s.tlatch) (n : Nat) : agentRun (turns n s) s = .next (raise .timeout { s with timer := 0 }) := by
  by_cases hz : s.timer = 0
  · have hs : { s with timer := 0 } = s := by rw [← hz]
    have hexpire : agentStep .sequencer s = .next (raise .timeout s) := seqStep_expire hp hc hq hz
    have hlist : turns n s = .sequencer :: List.replicate n .sequencer := by
      rw [turns, ← ht, hz, ← List.replicate_succ, List.replicate_succ']
      exact congrArg (· ++ [Agent.sequencer]) (List.append_nil _)
    rw [hlist, agentRun_cons hexpire, agentRun_sequencer_idle rfl, hs]
  · have hwait : agentStep .sequencer s = .next s := seqStep_wait hp hq hz
    have hticks := agentRun_ticks hp
    rw [ht] at hticks
    rw [turns, List.append_assoc, agentRun_append (agentRun_replicate_of_fixed hwait n), agentRun_append hticks,
      agentRun_singleton]
    exact seqStep_expire (s := { s with timer := 0 }) hp hc hq rfl

/-- `s` with every register blanked that receiving bytes short of the phase's end writes. -/
def readView (s : State) : State :=
  { s with hbuf := HBuf.reset, rbuf := [], sum := 0, rxDcs := 0, rxq := [], cnt := 0 }

theorem readView_stored (b : Byte) (rest : List Byte) (s : State) : readView (stored b rest s) = readView s :=
  (congrArg readView (stored_frame b rest s) :)

/-- A read phase that wants more bytes than RXQ holds receives them all (R204). -/
theorem agentRun_short {s : State} (hp : s.phase.isRead = true) (hn : s.cnt.toNat + s.rxq.length < s.need.toNat) :
    ∃ u, agentRun (List.replicate s.rxq.length .sequencer) s = .next u ∧ readView u = readView s ∧ u.rxq = [] ∧
      u.cnt < u.need := by
  generalize hq : s.rxq = rx at hn
  induction rx generalizing s with
  | nil => exact ⟨s, rfl, rfl, hq, BitVec.lt_def.2 hn⟩
  | cons b rest ih =>
    rw [List.length_cons] at hn
    have hstep : agentStep .sequencer s = .next (stored b rest s) := by
      rw [agentStep, seqStep_receive hp (by bv_omega) hq, receiveStep_of_ne (by bv_omega)]
    obtain ⟨u, hrun, hv, hu⟩ := ih (s := stored b rest s) (by rw [stored_phase, hp]) rfl
      (by rw [stored_cnt, stored_need]; bv_omega)
    rw [List.length_cons, List.replicate_succ, agentRun_cons hstep]
    exact ⟨u, hrun, hv.trans (readView_stored b rest s), hu⟩

/-! ### How a decode ends -/

/-- `t` is how a decode that was in `s` ends with the outcome `d.1` and the bytes `d.2` left (R185, R188, R290). -/
structure Ended (d : Decoded × List Byte) (s t : State) : Prop where
  idle : t.phase = .idle
  left : t.rxq = d.2
  response : ∀ p, d.1 = .response p →
    t.result = .ok ∧ t.rbuf = p ∧ t.rlen.toNat = p.length ∧ t.txq = s.txq ++ ackBytes ∧
      t.err0 = s.err0 ∧ t.err1 = s.err1 ∧ t.abortPhase = 0
  noResponse : ∀ k, d.1 = .noResponse k →
    t.result = .noResp ∧ t.rbuf = [] ∧ t.rlen = 0 ∧ t.txq = s.txq ∧
      t.err0 = s.err0 ||| k.mask0 ∧ t.err1 = s.err1 ||| k.mask1 ∧ t.abortPhase ≠ 0

/-- The registers of `s` that `Ended` and the turns read. -/
def endView (s : State) : Word16 × List Byte × Byte × Byte := (s.tlatch, s.txq, s.err0, s.err1)

theorem Ended.of_view {d : Decoded × List Byte} {s u t : State} (h : Ended d u t) (hv : endView u = endView s) :
    Ended d s t := by
  simp only [endView, Prod.mk.injEq] at hv
  obtain ⟨-, htxq, herr0, herr1⟩ := hv
  obtain ⟨idle, left, response, noResponse⟩ := h
  constructor <;> simpa only [← htxq, ← herr0, ← herr1]

/-- An abort of a read phase records that phase, whose code is not 0 (R290). -/
theorem ended_raise {s : State} {left : List Byte} (hp : s.phase.isRead = true) (hq : s.rxq = left) (k : ErrKind) :
    Ended (.noResponse k, left) s (raise k s) where
  idle := rfl
  left := hq
  response := nofun
  noResponse := by
    rintro _ ⟨⟩
    refine ⟨rfl, rfl, rfl, rfl, rfl, rfl, ?_⟩
    rw [raise_abortPhase]
    cases hs : s.phase <;> simp [hs, Phase.isRead, Phase.code] at hp ⊢

/-- Within the turns of a decode `s` comes to the end `d`. -/
def Settles (n : Nat) (d : Decoded × List Byte) (s : State) : Prop :=
  ∃ t, agentRun (turns n s) s = .next t ∧ Ended d s t

theorem Settles.of_run {k n : Nat} {d : Decoded × List Byte} {s u : State}
    (hrun : agentRun (List.replicate k .sequencer) s = .next u) (hk : k ≤ n) (hv : endView u = endView s)
    (h : Settles (n - k) d u) : Settles n d s := by
  obtain ⟨t, ht, he⟩ := h
  exact ⟨t, (agentRun_turns hk hrun (congrArg Prod.fst hv :)).trans ht, he.of_view hv⟩

theorem settles_of_ended {k n : Nat} {d : Decoded × List Byte} {s t : State}
    (hrun : agentRun (List.replicate k .sequencer) s = .next t) (hk : k ≤ n) (hl : t.tlatch = s.tlatch)
    (he : Ended d s t) : Settles n d s :=
  ⟨t, (agentRun_turns hk hrun hl).trans (agentRun_turns_idle he.idle _), he⟩

/-- A phase's check that fails ends the decode at once (R290). -/
theorem settles_of_raise {k n : Nat} {e : ErrKind} {s u : State} {left : List Byte}
    (hrun : agentRun (List.replicate k .sequencer) s = .next (raise e u)) (hk : k ≤ n) (hp : u.phase.isRead = true)
    (hv : endView u = endView s) (hq : u.rxq = left) : Settles n (.noResponse e, left) s :=
  settles_of_ended hrun hk (congrArg Prod.fst hv :) ((ended_raise hp hq e).of_view hv)

/-- A phase that RXQ has too few bytes for ends in a timeout, RXQ empty (R206). -/
theorem settles_timeout {p : Phase} {m : Byte} {n : Nat} {s : State} (hp : p.isRead = true)
    (hm : s.rxq.length < m.toNat) (hn : s.rxq.length ≤ n) :
    Settles n (.noResponse .timeout, []) (loadPhase p m s) := by
  obtain ⟨u, hrun, hv, hq, hc⟩ := agentRun_short (s := loadPhase p m s) hp (by simpa using hm)
  have hphase : u.phase.isRead = true := (congrArg (fun v : State => v.phase.isRead) hv :).trans hp
  have htimer : u.timer = u.tlatch :=
    (congrArg State.timer hv :).trans (congrArg State.tlatch hv :).symm
  refine Settles.of_run hrun hn (congrArg endView hv :) ⟨_, agentRun_turns_expire hphase hc hq htimer _, ?_⟩
  exact (ended_raise (s := { u with timer := 0 }) hphase hq .timeout).of_view rfl

/-! ### The phases of FRM.DEC, last to first -/

/-- FRM.DEC under way, beside a transport that accepts every byte. -/
structure FrmDecoding (s : State) : Prop where
  operation : s.opsel = .frmDec
  noAbort : s.abortPhase = 0
  accepting : s.transport.txqDepth = .unbounded

/-- A phase of one byte receives it and completes (R204). -/
theorem agentRun_one {p : Phase} {s : State} {b : Byte} {rest : List Byte} (hp : p.isRead = true)
    (hq : s.rxq = b :: rest) :
    agentRun (List.replicate 1 .sequencer) (loadPhase p 1 s) = .next (complete b (stored b rest (loadPhase p 1 s))) := by
  rw [List.replicate_one, agentRun_singleton, agentStep, seqStep_receive (s := loadPhase p 1 s) hp (by simp) hq,
    receiveStep_of_eq (by simp)]

/-- A phase of one byte whose check fails ends the decode (R183, R184). -/
theorem settles_of_failed {p : Phase} {n : Nat} {e : ErrKind} {s : State} {b : Byte} {left : List Byte}
    (hp : p.isRead = true) (hq : s.rxq = b :: left) (hn : 1 ≤ n)
    (hfail : complete b (stored b left (loadPhase p 1 s)) = raise e (stored b left (loadPhase p 1 s))) :
    Settles n (.noResponse e, left) (loadPhase p 1 s) := by
  have hrun := agentRun_one hp hq
  rw [hfail] at hrun
  exact settles_of_raise hrun hn (by rw [stored_phase]; exact hp)
    (congrArg endView (stored_frame b left (loadPhase p 1 s)) :) rfl

/-- The postamble 0x00 leads through TX_ACK to the response, which is all of RBUF (R184, R185). -/
theorem settles_response {n : Nat} {s : State} {left : List Byte} (h : FrmDecoding s) (hr : Received s)
    (hq : s.rxq = 0x00 :: left) (hn : 7 ≤ n) : Settles n (.response s.rbuf, left) (loadPhase .rdPost 1 s) := by
  refine Settles.of_run (agentRun_rdPost hq) (by omega) rfl ?_
  have hop : (acked 6 (withPostamble left s)).opsel ≠ .xact := fun hx => nomatch h.operation.symm.trans hx
  have hrun := (agentRun_txAck (s := withPostamble left s) rfl rfl rfl h.accepting).trans (finishDecode_of_ne hop)
  refine settles_of_ended hrun (by omega) rfl ⟨rfl, rfl, ?_, nofun⟩
  have hrlen : (s.rxLen - 1).toNat = s.rbuf.length := by
    have hlength := hr.length
    bv_omega
  rintro _ ⟨⟩
  exact ⟨rfl, rfl, hrlen, rfl, rfl, rfl, h.noAbort⟩

/-- RD_DCS ends as the listing from the data checksum on says, the payload received (R183, R188). -/
theorem settles_decodeTail {n : Nat} {s : State} (h : FrmDecoding s) (hr : Received s) (hn : s.rxq.length + 6 ≤ n) :
    Settles n (decodeTail s.rbuf s.rxq) (loadPhase .rdDcs 1 s) := by
  cases hq : s.rxq with
  | nil => exact settles_timeout rfl (by rw [hq]; decide) (by omega)
  | cons dcs rest =>
    rw [hq, List.length_cons] at hn
    simp only [decodeTail, ← hr.running]
    by_cases hsum : s.sum + dcs = 0
    case neg =>
      rw [if_pos hsum]
      exact settles_of_failed rfl hq (by omega) (if_pos hsum)
    case pos =>
      rw [if_neg (not_not.2 hsum)]
      refine Settles.of_run (agentRun_rdDcs hq hsum) (by omega) rfl ?_
      cases rest with
      | nil => exact settles_timeout rfl Nat.one_pos (Nat.zero_le _)
      | cons post left =>
        rw [List.length_cons] at hn
        dsimp only
        by_cases hpost : post = 0x00
        case neg =>
          rw [if_pos hpost]
          exact settles_of_failed rfl rfl (by omega) (if_pos hpost)
        case pos =>
          rw [if_neg (not_not.2 hpost), hpost]
          exact settles_response ⟨h.operation, h.noAbort, h.accepting⟩ ⟨hr.length, hr.running⟩ rfl (by omega)

theorem endView_enter (p : Phase) (m : Byte) (s : State) : endView (enter p m s) = endView s := by
  obtain he | ⟨-, -, he⟩ := enter_cases p m s <;> rw [he] <;> rfl

theorem decodePayload_of_length_lt {len : Byte} {rx : List Byte} (h : rx.length < len.toNat - 1) :
    decodePayload len rx = (.noResponse .timeout, []) := by
  rw [decodePayload, rxRead, List.length_take, if_pos (by omega)]

theorem decodePayload_append {len : Byte} {data : List Byte} (h : data.length = len.toNat - 1) (rest : List Byte) :
    decodePayload len (data ++ rest) = decodeTail data rest := by
  rw [decodePayload, rxRead, ← h, List.take_left, List.drop_left, if_neg (lt_irrefl _)]

/-- RD_PAY ends as the listing from the payload on says (R181, R182, R188). -/
theorem settles_decodePayload {n : Nat} {s : State} (h : FrmDecoding s) (hl : s.rxLen ≠ 0) (hb : s.rbuf = [])
    (hs : s.sum = tfiDevice) (hn : s.rxq.length + 6 ≤ n) :
    Settles n (decodePayload s.rxLen s.rxq) (enter .rdPay (s.rxLen - 1) s) := by
  have hpred : (s.rxLen - 1).toNat = s.rxLen.toNat - 1 := by bv_omega
  by_cases hshort : s.rxq.length < s.rxLen.toNat - 1
  case pos =>
    rw [decodePayload_of_length_lt hshort, enter_pos (by bv_omega)]
    exact settles_timeout rfl (by omega) (by omega)
  case neg =>
    obtain ⟨data, rest, hq, hlen⟩ : ∃ data rest, s.rxq = data ++ rest ∧ data.length = s.rxLen.toNat - 1 :=
      ⟨_, _, (List.take_append_drop _ _).symm, List.length_take_of_le (by omega)⟩
    have hfit : data.length ≤ 254 := by bv_omega
    have hneed : byteOf data.length = s.rxLen - 1 := by rw [hlen, ← hpred, byteOf_toNat]
    have hrbuf : s.rbuf ++ data = data := by rw [hb, List.nil_append]
    have hrun := agentRun_payload hfit hb hq
    have hreceived : Received (withPayload data rest s) := by
      refine ⟨?_, ?_⟩ <;> simp only [withPayload, hrbuf, hs]
      bv_omega
    rw [hq, List.length_append] at hn
    have htail : Settles (n - data.length) (decodeTail (s.rbuf ++ data) rest)
        (loadPhase .rdDcs 1 (withPayload data rest s)) :=
      settles_decodeTail ⟨h.operation, h.noAbort, h.accepting⟩ hreceived (show rest.length + 6 ≤ _ by omega)
    rw [hneed] at hrun
    rw [hrbuf] at htail
    rw [hq, decodePayload_append hlen]
    exact Settles.of_run hrun (by omega) (endView_enter _ _ s).symm htail

/-- Six bytes, or fewer. -/
theorem length_lt_six_or (l : List Byte) :
    l.length < 6 ∨ ∃ b0 b1 b2 b3 b4 b5 rest, l = [b0, b1, b2, b3, b4, b5] ++ rest := by
  match l with
  | [] | [_] | [_, _] | [_, _, _] | [_, _, _, _] | [_, _, _, _, _] => exact .inl (by simp)
  | b0 :: b1 :: b2 :: b3 :: b4 :: b5 :: rest => exact .inr ⟨b0, b1, b2, b3, b4, b5, rest, rfl⟩

theorem decodeHeader_of_length_lt {l : List Byte} (h : l.length < 6) : decodeHeader l = (.noResponse .timeout, []) := by
  match l with
  | [] | [_] | [_, _] | [_, _, _] | [_, _, _, _] | [_, _, _, _, _] => rfl
  | _ :: _ :: _ :: _ :: _ :: _ :: rest => exact absurd h (by simp only [List.length_cons]; omega)

/-- The completion of RD_HDR makes the checks of the listing, on the staged header (R175 to R181, R188). -/
theorem completeHdr_decodeHeader (u : State) :
    (∃ k, completeHdr u = raise k (latchHdr u) ∧ decodeHeader (u.hbuf.bytes ++ u.rxq) = (.noResponse k, u.rxq)) ∨
      (u.hbuf.b3 ≠ 0 ∧ completeHdr u = enter .rdPay (u.hbuf.b3 - 1) { latchHdr u with sum := tfiDevice } ∧
        decodeHeader (u.hbuf.bytes ++ u.rxq) = decodePayload u.hbuf.b3 u.rxq) := by
  unfold completeHdr HBuf.bytes HBuf.start
  simp only [List.cons_append, List.nil_append, decodeHeader]
  split_ifs
  · exact .inl ⟨_, rfl, rfl⟩
  · exact .inl ⟨_, rfl, rfl⟩
  · exact .inl ⟨_, rfl, rfl⟩
  · exact .inl ⟨_, rfl, rfl⟩
  · exact .inr ⟨‹_›, rfl, rfl⟩

/-- `s` with six bytes received and staged, `rest` being left in RXQ (R172, R175). -/
def withStaged (h : HBuf) (rest : List Byte) (s : State) : State := { s with hbuf := h, cnt := 6, rxq := rest }

/-- RD_HDR ends as the listing from the header on says (R175 to R181, R188). -/
theorem settles_decodeHeader {n : Nat} {s : State} (h : FrmDecoding s) (hb : s.rbuf = []) (hn : s.rxq.length + 6 ≤ n) :
    Settles n (decodeHeader s.rxq) (loadPhase .rdHdr 6 s) := by
  obtain hshort | ⟨b0, b1, b2, b3, b4, b5, rest, hq⟩ := length_lt_six_or s.rxq
  · rw [decodeHeader_of_length_lt hshort]
    exact settles_timeout rfl hshort (by omega)
  · obtain ⟨u, hu⟩ : ∃ u, u = withStaged ⟨b0, b1, b2, b3, b4, b5⟩ rest (loadPhase .rdHdr 6 s) := ⟨_, rfl⟩
    have hrun : agentRun (List.replicate 6 .sequencer) (loadPhase .rdHdr 6 s) = .next (completeHdr u) :=
      hu ▸ agentRun_header (.inr rfl) hq
    have hrx : s.rxq = u.hbuf.bytes ++ u.rxq := by rw [hq, hu]; rfl
    have hlen : s.rxq.length = 6 + u.rxq.length := by rw [hrx, List.length_append]; rfl
    have hv : endView u = endView s := by rw [hu]; rfl
    rw [hrx]
    obtain ⟨k, hc, hd⟩ | ⟨hl, hc, hd⟩ := completeHdr_decodeHeader u <;> rw [hc] at hrun <;> rw [hd]
    · exact settles_of_raise hrun (by omega) (by rw [hu]; rfl) hv rfl
    · refine Settles.of_run hrun (by omega) ((endView_enter _ _ _).trans hv) ?_
      have hdec : FrmDecoding { latchHdr u with sum := tfiDevice } := by
        rw [hu]
        exact ⟨h.operation, h.noAbort, h.accepting⟩
      have hbuf : ({ latchHdr u with sum := tfiDevice } : State).rbuf = [] := by rw [hu]; exact hb
      exact settles_decodePayload (s := { latchHdr u with sum := tfiDevice }) hdec hl hbuf rfl
        (show u.rxq.length + 6 ≤ n - 6 by omega)

/-- `s` at the start of RD_HDR, the six bytes of `ack` read in RD_ACK and `rest` left in RXQ: a mismatch has set its flag
(R172). -/
def afterAck (ack : HBuf) (rest : List Byte) (s : State) : State :=
  loadPhase .rdHdr 6 { s with
    hbuf := ack, rxq := rest, err0 := if ack.bytes = ackBytes then s.err0 else s.err0 ||| 0x01 }

theorem decodeFunction_of_length_lt {rx : List Byte} (h : rx.length < 6) :
    decodeFunction rx = { outcome := .noResponse .timeout, ackMismatch := false, left := [] } := by
  rw [decodeFunction, rxRead, List.length_take]
  exact if_pos (by omega)

theorem decodeFunction_append (ack : HBuf) (rest : List Byte) :
    decodeFunction (ack.bytes ++ rest) =
      { outcome := (decodeHeader rest).1, ackMismatch := decide (ack.bytes ≠ ackBytes), left := (decodeHeader rest).2 } :=
  rfl

/-- RD_ACK only flags a mismatch, and from RD_HDR on the phases end as the listing says; `u` is the state whose flags the
outcome adds to (R172, R188). -/
theorem settles_decodeFunction {n : Nat} {s : State} (h : FrmDecoding s) (hb : s.rbuf = []) (hn : s.rxq.length + 6 ≤ n) :
    ∃ u t, agentRun (turns n s) (loadPhase .rdAck 6 s) = .next t ∧
      Ended ((decodeFunction s.rxq).outcome, (decodeFunction s.rxq).left) u t ∧ u.txq = s.txq ∧ u.err1 = s.err1 ∧
      u.err0 = if (decodeFunction s.rxq).ackMismatch then s.err0 ||| 0x01 else s.err0 := by
  obtain hshort | ⟨b0, b1, b2, b3, b4, b5, rest, hq⟩ := length_lt_six_or s.rxq
  · obtain ⟨t, hrun, he⟩ := settles_timeout (p := .rdAck) (m := 6) rfl hshort (show s.rxq.length ≤ n by omega)
    rw [decodeFunction_of_length_lt hshort]
    exact ⟨_, t, hrun, he, rfl, rfl, rfl⟩
  · obtain ⟨ack, hack⟩ : ∃ h : HBuf, h = ⟨b0, b1, b2, b3, b4, b5⟩ := ⟨_, rfl⟩
    have hrx : s.rxq = ack.bytes ++ rest := by rw [hq, hack]; rfl
    have hlen : s.rxq.length = 6 + rest.length := by rw [hq, List.length_append]; rfl
    have hrun : agentRun (List.replicate 6 .sequencer) (loadPhase .rdAck 6 s) = .next (afterAck ack rest s) := by
      rw [agentRun_header (.inl rfl) hq, hack]
      exact congrArg Host.Outcome.next (completeAck_eq _)
    have hheader : Settles (n - 6) (decodeHeader rest) (afterAck ack rest s) :=
      settles_decodeHeader ⟨h.operation, h.noAbort, h.accepting⟩ hb (show rest.length + 6 ≤ n - 6 by omega)
    obtain ⟨t, ht, he⟩ := hheader
    rw [hrx, decodeFunction_append]
    refine ⟨afterAck ack rest s, t, (agentRun_turns (by omega) hrun rfl).trans ht, he, rfl, rfl, ?_⟩
    simp only [decide_eq_true_eq, ne_eq, ite_not]
    rfl

/-- Settles O43: the start step enters RD_ACK with RBUF empty. -/
theorem stepsRefineTheDecodeFunction : Obligations.StepsRefineTheDecodeFunction := by
  unfold Obligations.StepsRefineTheDecodeFunction
  intro s n hp hdepth hn
  obtain ⟨u, t, hrun, he, htxq, herr1, herr0⟩ :=
    settles_decodeFunction (s := { clearForDecode s with opsel := .frmDec }) ⟨rfl, rfl, hdepth⟩ rfl hn
  refine ⟨_, t, by rw [exec_frmDec, hostWrite_idle _ hp], hrun, he.idle, he.left, fun p hd => ?response,
    fun k hd => ?noResponse⟩
  case response =>
    have hresponse := he.response p hd
    rw [htxq, herr1, herr0] at hresponse
    exact hresponse
  case noResponse =>
    have hnone := he.noResponse k hd
    rw [htxq, herr1, herr0] at hnone
    exact hnone

end Sys2Proof.Machine
end

section
/-! PROOF. The host's operations of one access, NOP, the timeout bytes, RPTR.SET, the pushes, RD (43_transaction.md R220 to
R226, 40_crc16a.md R136), and the transport's TP.RESET and TP.FLUSH (R217, R218). -/

namespace Sys2Proof.Machine

open Sys2Proof.Spec

/-! ### NOP, the timeout and RPTR -/

/-- Settles O12: NOP is the host write with no effect. -/
theorem nopChangesNothing : Obligations.NopChangesNothing := by
  unfold Obligations.NopChangesNothing
  exact hostOperation_of_hostWrite rfl rfl rfl fun _ => rfl

/-- Two bytes side by side are the first times 256 and the second. -/
theorem append_eq_ofNat (high low : Byte) :
    (high ++ low : Word16) = BitVec.ofNat 16 (high.toNat * 256 + low.toNat) := by
  have hsum : high.toNat <<< 8 ||| low.toNat = high.toNat * 256 + low.toNat := by
    rw [← Nat.shiftLeft_add_eq_or_of_lt low.isLt, Nat.shiftLeft_eq]
  rw [← hsum, ← BitVec.toNat_append, BitVec.ofNat_toNat, BitVec.setWidth_eq]

theorem toNat_lowByte (w : Word16) : (lowByte w).toNat = w.toNat % 256 := by
  rw [← byteOf_mod_eq_lowByte, byteOf, BitVec.toNat_ofNat, Nat.mod_mod]

theorem toNat_highByte (w : Word16) : (highByte w).toNat = w.toNat / 256 := by
  rw [← byteOf_div_eq_highByte]
  exact Nat.mod_eq_of_lt (by omega)

/-- Settles O14: each write puts its byte beside the one that stays. -/
theorem timeoutBytesAreWritten : Obligations.TimeoutBytesAreWritten := by
  unfold Obligations.TimeoutBytesAreWritten
  refine fun b => ⟨hostOperation_of_hostWrite rfl rfl rfl fun s => ?low,
    hostOperation_of_hostWrite rfl rfl rfl fun s => ?high⟩
  case low => rw [withLow, append_eq_ofNat, toNat_highByte]
  case high => rw [withHigh, append_eq_ofNat, toNat_lowByte]

theorem exec_rptrSet (i : Byte) : exec (.rptrSet i) = hostWrite fun s => { s with rptr := i } := rfl

/-- Settles O15: RPTR.SET is a host write, and the pop after it is the underrun of R42. -/
theorem rptrSetThenPop : Obligations.RptrSetThenPop := by
  unfold Obligations.RptrSetThenPop
  refine fun i => ⟨hostOperation_of_hostWrite rfl rfl (exec_rptrSet i) fun _ => rfl, fun s hp hi => ?_⟩
  have hset : exec (.rptrSet i) s = .next { s with rptr := i } := by rw [exec_rptrSet, hostWrite_idle _ hp]
  obtain ⟨-, -, hunderrun⟩ := rbufPopReadsAndAdvances
  obtain ⟨b, n, hpop⟩ := hunderrun { s with rptr := i } (BitVec.not_lt.2 hi)
  exact ⟨b, n, by rw [execAll_cons hset, execAll_cons hpop, execAll_nil]⟩

/-! ### The pushes -/

/-- DBUF holds 254 bytes, so a byte fits below 254 (R40, R221). -/
theorem pushDbuf_eq (b : Byte) (s : State) :
    pushDbuf b s = if s.dbuf.length < 254 then { s with dbuf := s.dbuf ++ [b] }
      else { s with err1 := s.err1 ||| 0x02 } := by
  obtain ⟨hl, he⟩ | ⟨hl, he⟩ := pushDbuf_cases b s <;> rw [he]
  · rw [if_neg (Nat.not_lt.2 hl), flag_eq_of_mask0 rfl, ErrKind.mask1]
  · rw [if_pos hl]

/-- A byte that fits is absorbed as well (R136). -/
theorem exec_bufPushc (b : Byte) : exec (.bufPushc b) = hostWrite fun s =>
    if s.dbuf.length < 254 then { s with dbuf := s.dbuf ++ [b], crcAcc := crcStep s.crcAcc b } else s.flag .dbufOvf := by
  funext s
  simp only [exec, execBufPushc, bufferCapacity, ← Nat.not_lt, ite_not]

/-- Settles O16: a push appends where the byte fits, and absorbs it by the document's step. -/
theorem pushAppendsOrOverflows : Obligations.PushAppendsOrOverflows := by
  unfold Obligations.PushAppendsOrOverflows
  refine ⟨fun b => ⟨hostOperation_of_hostWrite rfl rfl rfl (pushDbuf_eq b),
    hostOperation_of_hostWrite rfl rfl (exec_bufPushc b) fun s => ?_⟩,
    hostOperation_of_hostWrite rfl rfl rfl fun _ => rfl⟩
  rw [crcStep_eq_ofNat, flag_eq_of_mask0 rfl, ErrKind.mask1]

/-! ### RD -/

/-- RD stores the register's byte in `reg_rdata` (R226). -/
theorem exec_rd {a : Byte} (ha : a ≠ 0x0E) (s : State) :
    exec (.rd a) s = .next { s with regRdata := readRegister a s } := by
  rw [exec, execRd, hostRead_register ha]

/-- Settles O10: the register file reads as the map says, and 0x00 at the reserved addresses. -/
theorem rdReturnsTheRegister : Obligations.RdReturnsTheRegister := by
  unfold Obligations.RdReturnsTheRegister
  refine ⟨fun a ha => ?word, fun s => ⟨fun p hm => ?mapped, fun a ha => ?reserved⟩⟩
  case word => rw [decode, decodeRead_of_ne ha]
  case mapped =>
    obtain ⟨hne, hread⟩ := readRegister_of_mem_registerMap hm
    rw [exec_rd hne, hread]
  case reserved =>
    have hne : a ≠ 0x0E := by rintro rfl; exact absurd ha (by decide)
    rw [exec_rd hne, readRegister_reserved ha]

/-! ### The transport -/

/-- Settles O45: TP.RESET is the host write that empties both queues. -/
theorem tpResetEmptiesBothQueues : Obligations.TpResetEmptiesBothQueues := by
  unfold Obligations.TpResetEmptiesBothQueues
  exact hostOperation_of_hostWrite rfl rfl rfl fun _ => rfl

/-- Only an idle block performs the effect of a host operation. -/
theorem hostOperation_congr {w : Word16} {i : Instr} {f g : State → State} (h : HostOperation w i f)
    (hfg : ∀ s : State, s.phase = .idle → f s = g s) : HostOperation w i g := by
  obtain ⟨hword, hidle, hbusy⟩ := h
  exact ⟨hword, fun s hp => by rw [hidle s hp, hfg s hp], hbusy⟩

/-- TP.FLUSH of an empty TXQ has nothing to wait for (R218). -/
theorem exec_tpFlush : exec .tpFlush = hostWrite fun s =>
    { s with opsel := .transmit, phase := if s.txq = [] then .idle else .drain } := by
  funext s
  simp only [exec, execTpFlush, State.tpTxempty, List.isEmpty_iff]

/-- DRAIN ends when TXQ is empty (R218). -/
theorem seqStep_drain {s : State} (hp : s.phase = .drain) (hq : s.txq = []) :
    seqStep s = .next { s with phase := .idle } := by
  rw [seqStep_enabled (by rw [seqEnabled, hp, State.tpTxempty, hq]; rfl), seqMove, hp]
  rfl

theorem seqStep_drain_waits {s : State} (hp : s.phase = .drain) (hq : s.txq ≠ []) : seqStep s = .next s :=
  seqStep_disabled (by rw [seqEnabled, hp, State.tpTxempty, List.isEmpty_eq_false_iff.2 hq])

/-- Settles O46: with TXQ empty the block stays idle, and DRAIN waits for that. -/
theorem tpFlushWaitsForTxq : Obligations.TpFlushWaitsForTxq := by
  unfold Obligations.TpFlushWaitsForTxq
  refine ⟨hostOperation_congr (hostOperation_of_hostWrite rfl rfl exec_tpFlush fun _ => rfl) fun s hp => ?_,
    fun s hp => ⟨seqStep_drain hp, seqStep_drain_waits hp⟩⟩
  by_cases hq : s.txq = []
  · rw [if_pos hq, if_pos hq, hp]
  · rw [if_neg hq, if_neg hq]

end Sys2Proof.Machine
end

section
/-! PROOF. The deadline of a read phase: the tick and the expire step (43_transaction.md R204 to R207). -/

namespace Sys2Proof.Machine

open Sys2Proof.Spec

/-! ### The tick -/

/-- The read phases are PHASE 2 to 6 (R17, R205). -/
theorem isRead_iff_mem (p : Phase) : p.isRead = true ↔ p ∈ [.rdAck, .rdHdr, .rdPay, .rdDcs, .rdPost] := by
  cases p <;> decide

/-- A tick of a read phase takes one from TIMER, down to 0 (R205). -/
theorem tickStep_of_isRead {s : State} (hp : s.phase.isRead = true) :
    tickStep s = { s with timer := BitVec.ofNat 16 (s.timer.toNat - 1) } := by
  by_cases ht : 0 < s.timer
  · have hone : s.timer - 1 = BitVec.ofNat 16 (s.timer.toNat - 1) := by bv_omega
    rw [tickStep, if_pos ⟨hp, ht⟩, hone]
  · have hzero : BitVec.ofNat 16 (s.timer.toNat - 1) = s.timer := by bv_omega
    rw [tickStep, if_neg fun h => ht h.2, hzero]

/-- Settles O36: a tick counts a running timer of a read phase. -/
theorem tickCountsOnlyInReadPhases : Obligations.TickCountsOnlyInReadPhases := by
  unfold Obligations.TickCountsOnlyInReadPhases
  refine fun s => ⟨fun hp _ => ?counts, fun h => ?still⟩
  case counts => rw [agentStep, tickStep_of_isRead ((isRead_iff_mem _).2 hp)]
  case still =>
    have hstill : ¬ (s.phase.isRead = true ∧ 0 < s.timer) := by
      rintro ⟨hp, ht⟩
      obtain hout | hzero := h
      · exact hout ((isRead_iff_mem _).1 hp)
      · bv_omega
    rw [agentStep, tickStep, if_neg hstill]

/-- Any number of ticks of a read phase (R205). -/
theorem agentRun_ticks_of_isRead {s : State} (hp : s.phase.isRead = true) (k : Nat) :
    agentRun (List.replicate k .timeBase) s = .next { s with timer := BitVec.ofNat 16 (s.timer.toNat - k) } := by
  induction k generalizing s with
  | zero =>
    rw [Nat.sub_zero, BitVec.ofNat_toNat, BitVec.setWidth_eq]
    rfl
  | succ k ih =>
    have htick : agentStep .timeBase s = .next { s with timer := BitVec.ofNat 16 (s.timer.toNat - 1) } := by
      rw [agentStep, tickStep_of_isRead hp]
    have hcount : (BitVec.ofNat 16 (s.timer.toNat - 1)).toNat - k = s.timer.toNat - (k + 1) := by bv_omega
    rw [List.replicate_succ, agentRun_cons htick, ← hcount]
    exact ih (s := { s with timer := BitVec.ofNat 16 (s.timer.toNat - 1) }) hp

/-- Settles O37: the ticks leave the timer running or run it out, and the sequencer then waits or expires. -/
theorem phaseExpiresAfterExactlyItsTicks : Obligations.PhaseExpiresAfterExactlyItsTicks := by
  unfold Obligations.PhaseExpiresAfterExactlyItsTicks
  intro s k hp hc hq
  rw [agentRun_append (agentRun_ticks_of_isRead hp k), agentRun_singleton]
  refine ⟨fun hk => ?waits, fun hk => ?expires⟩
  case waits =>
    exact seqStep_wait (s := { s with timer := BitVec.ofNat 16 (s.timer.toNat - k) }) hp hq (by dsimp only; bv_omega)
  case expires =>
    have hzero : BitVec.ofNat 16 (s.timer.toNat - k) = 0 := by rw [Nat.sub_eq_zero_of_le hk]; rfl
    rw [hzero, agentStep, seqStep_expire (s := { s with timer := 0 }) hp hc hq rfl, raise_eq_aborted]
    rfl

/-! ### The priority of the receive step -/

theorem enter_err1 (p : Phase) (n : Byte) (s : State) : (enter p n s).err1 = s.err1 := by
  obtain he | ⟨-, -, he⟩ := enter_cases p n s <;> rw [he] <;> rfl

/-- A kind of ERR0 leaves ERR1, and so does the abort for it (R281, R290). -/
theorem flag_err1_of_mask1 {k : ErrKind} (hk : k.mask1 = 0x00) (s : State) : (s.flag k).err1 = s.err1 := by
  rw [flag_eq_of_mask1 hk]

theorem raise_err1_of_mask1 {k : ErrKind} (hk : k.mask1 = 0x00) (s : State) : (raise k s).err1 = s.err1 :=
  flag_err1_of_mask1 hk s

theorem completeAck_err1 (s : State) : (completeAck s).err1 = s.err1 := by
  unfold completeAck
  rw [enter_err1]
  split
  · rfl
  · exact flag_err1_of_mask1 rfl s

theorem completeHdr_err1 (s : State) : (completeHdr s).err1 = s.err1 := by
  unfold completeHdr
  dsimp only
  split
  · exact raise_err1_of_mask1 rfl _
  split
  · exact raise_err1_of_mask1 rfl _
  split
  · exact raise_err1_of_mask1 rfl _
  split
  · exact raise_err1_of_mask1 rfl _
  · exact enter_err1 _ _ _

theorem completeDcs_err1 (b : Byte) (s : State) : (completeDcs b s).err1 = s.err1 := by
  unfold completeDcs
  split
  · exact raise_err1_of_mask1 rfl s
  · exact enter_err1 _ _ s

theorem completePost_err1 (b : Byte) (s : State) : (completePost b s).err1 = s.err1 := by
  unfold completePost
  split
  · exact raise_err1_of_mask1 rfl s
  · rfl

/-- The checks at the end of a read phase set flags of ERR0 alone (R281). -/
theorem complete_err1 (b : Byte) (s : State) : (complete b s).err1 = s.err1 := by
  unfold complete
  split
  · exact completeAck_err1 s
  · exact completeHdr_err1 s
  · exact enter_err1 _ _ s
  · exact completeDcs_err1 b s
  · exact completePost_err1 b s
  all_goals rfl

/-- A receive never sets TIMEOUT, nor any other flag of ERR1 (R204, R206). -/
theorem receiveStep_err1 (b : Byte) (rest : List Byte) (s : State) : (receiveStep b rest s).err1 = s.err1 := by
  have hstored : (stored b rest s).err1 = s.err1 := (congrArg State.err1 (stored_frame b rest s) :)
  rw [receiveStep_eq]
  split
  · rw [complete_err1, hstored]
  · exact hstored

/-- Settles O35: the receive step, the expire step and the wait. -/
theorem receiveBeforeExpire : Obligations.ReceiveBeforeExpire := by
  unfold Obligations.ReceiveBeforeExpire
  refine fun s hp hc => ⟨fun b rest hq => ?receives, fun hq ht => ?expires, seqStep_wait hp⟩
  case receives =>
    refine ⟨_, seqStep_receive hp hc hq, (congrArg State.rxq (seqKept_receiveStep b rest s).frame :),
      receiveStep_err1 b rest s, fun hne => ?_⟩
    rw [receiveStep_of_ne hne]
    exact ⟨(congrArg State.timer (stored_frame b rest s) :), stored_phase b rest s⟩
  case expires =>
    rw [seqStep_expire hp hc hq ht, raise_eq_aborted]
    rfl

end Sys2Proof.Machine
end

section
/-! PROOF. XACT: its start, its step in TX_CMD, and a whole transaction (43_transaction.md R200, R211, R213). -/

namespace Sys2Proof.Machine

open Sys2Proof.Spec

/-! ### The start -/

/-- XACT of an empty DBUF is refused (R213). -/
theorem startXact_nil {s : State} (hd : s.dbuf = []) : startXact s = { s with err1 := s.err1 ||| 0x20 } := by
  rw [startXact, if_pos hd, flag_eq_of_mask0 rfl, ErrKind.mask1]

/-- XACT of a command latches its opcode and begins the write of its frame (R200). -/
theorem startXact_cons {s : State} {op : Byte} {cmd : List Byte} (hd : s.dbuf = op :: cmd) :
    startXact s = transacting op cmd s := by
  obtain ⟨⟩ := s
  subst hd
  exact if_neg (List.cons_ne_nil op cmd)

/-- Settles O39: both starts, and TX_CMD's step on the frame. -/
theorem xactStartsOrIsRefused : Obligations.XactStartsOrIsRefused := by
  unfold Obligations.XactStartsOrIsRefused
  refine ⟨hostOperation_of_hostWrite rfl rfl rfl fun s => ?_, transmitStep_of_txBytes .xact fun _ => txBytes_frame⟩
  split
  · exact startXact_nil ‹_›
  · exact startXact_cons ‹_›

/-! ### The whole transaction -/

/-- `s` when the command frame of XACT is sent (R200). -/
def commandSent (op : Byte) (cmd : List Byte) (s : State) : State :=
  written (encodeFrame (op :: cmd)) (cmd.length + 9) (transacting op cmd s)

theorem length_encodeFrame_cons (op : Byte) (cmd : List Byte) : (encodeFrame (op :: cmd)).length = cmd.length + 9 :=
  length_frameBytes tfiHost (op :: cmd)

theorem commandSent_txq (op : Byte) (cmd : List Byte) (s : State) :
    (commandSent op cmd s).txq = s.txq ++ encodeFrame (op :: cmd) := by
  have hall := List.take_of_length_le (length_encodeFrame_cons op cmd).le
  exact congrArg (s.txq ++ ·) hall

/-- With the frame sent XACT enters RD_ACK (R200). -/
theorem endTx_xact {s : State} (hop : s.opsel = .xact) : endTx s = loadPhase .rdAck 6 s := by
  rw [endTx, if_pos hop, enter_pos (by decide)]

/-- XACT sends the frame and then waits for the device's ACK (R200). -/
theorem agentRun_transacting {s : State} {op : Byte} {cmd : List Byte} (hl : cmd.length ≤ 253)
    (hd : s.transport.txqDepth = .unbounded) :
    agentRun (List.replicate (cmd.length + 9) .sequencer) (transacting op cmd s) =
      .next (loadPhase .rdAck 6 (commandSent op cmd s)) := by
  have hfit : (op :: cmd).length ≤ 254 := Nat.succ_le_succ hl
  have h : Transmitting (encodeFrame (op :: cmd)) (transacting op cmd s) :=
    { phase := rfl
      bytes := txBytes_frame rfl rfl hfit
      count := (Nat.mod_eq_of_lt (by omega)).trans (length_encodeFrame_cons op cmd).symm
      index := rfl
      running := fun _ => rfl
      accepting := hd }
  rw [h.agentRun_endTx (length_encodeFrame_cons op cmd).symm (by omega), endTx_xact rfl, commandSent]

/-- From XACT's start to the last step of the closing ACK (R200, R172 to R185). -/
theorem agentRun_transaction {s : State} {op : Byte} {cmd payload rest : List Byte} (hc : cmd.length ≤ 253)
    (hl : payload.length ≤ 254) (hd : s.transport.txqDepth = .unbounded)
    (hq : s.rxq = ackBytes ++ reframe payload ++ rest) :
    agentRun (List.replicate (cmd.length + 9 + payload.length + 20) .sequencer) (transacting op cmd s) =
      finishDecode (decoded payload rest (commandSent op cmd s)) := by
  rw [Nat.add_assoc, List.replicate_add, agentRun_append (agentRun_transacting hc hd)]
  exact agentRun_decode hl rfl hd hq

/-- The response of an empty payload has no opcode (R211). -/
theorem finishDecode_xact_empty {s : State} (hop : s.opsel = .xact) (hl : s.rxLen - 1 = 0) :
    finishDecode s = .next { s with rlen := 0, err0 := s.err0 ||| 0x40, result := .ok, phase := .idle } := by
  rw [finishDecode_of_echoCheck hop (echoCheck_empty hl), hl]

/-- The response's opcode is stripped into RSP_OP and compared (R211). -/
theorem finishDecode_xact_cons {s : State} {e : Byte} {rest : List Byte} (hop : s.opsel = .xact)
    (hl : s.rxLen - 1 ≠ 0) (hb : s.rbuf = e :: rest) :
    finishDecode s = .next { s with
      rlen := s.rxLen - 1 - 1, rspOp := e, rbuf := rest
      err0 := if e = s.reqOp + 1 then s.err0 else s.err0 ||| 0x40, result := .ok, phase := .idle } := by
  have hecho : e = s.reqOp + 1 ↔ e.toNat = (s.reqOp.toNat + 1) % 256 := by bv_omega
  rw [finishDecode_of_echoCheck hop (echoCheck_cons hl hb), if_congr hecho rfl rfl]

/-- Settles O44: the start, the run to the end of the closing ACK, and the echo check on the response's payload. -/
theorem transactionEndToEnd : Obligations.TransactionEndToEnd := by
  unfold Obligations.TransactionEndToEnd
  intro s op cmd payload extra hp hdbuf hc hl hd hq
  have hstart : exec .xact s = .next (transacting op cmd s) := by
    rw [← startXact_cons hdbuf, exec, execXact, hostWrite_idle _ hp]
  have hrun := agentRun_transaction (op := op) hc hl hd hq
  have hlen : (decoded payload extra (commandSent op cmd s)).rxLen - 1 = byteOf payload.length :=
    frameLen_sub_one payload
  have htxq : (commandSent op cmd s).txq ++ ackBytes = s.txq ++ encodeFrame (op :: cmd) ++ ackBytes := by
    rw [commandSent_txq]
  cases payload with
  | nil =>
    rw [finishDecode_xact_empty rfl hlen] at hrun
    exact ⟨_, _, hstart, hrun, rfl, rfl, rfl, rfl, htxq, rfl, hdbuf.symm, rfl, rfl, fun _ => ⟨rfl, rfl, rfl⟩, nofun⟩
  | cons e rest =>
    rw [List.length_cons] at hl hlen
    have hne : (decoded (e :: rest) extra (commandSent op cmd s)).rxLen - 1 ≠ 0 := by
      rw [hlen, byteOf]
      bv_omega
    have hrlen : ((decoded (e :: rest) extra (commandSent op cmd s)).rxLen - 1 - 1).toNat = rest.length := by
      rw [hlen, byteOf]
      bv_omega
    rw [finishDecode_xact_cons rfl hne rfl] at hrun
    refine ⟨_, _, hstart, hrun, rfl, rfl, rfl, rfl, htxq, rfl, hdbuf.symm, rfl, rfl, nofun, fun e' rest' he => ?_⟩
    obtain ⟨rfl, rfl⟩ := List.cons.inj he
    exact ⟨rfl, rfl, hrlen, rfl⟩

end Sys2Proof.Machine
end

section
/-! PROOF. A carried command as a run of the host's turns: BUF.CLR, the pushes, and the start of XACT
(44_carried_commands.md R230, 43_transaction.md R200, log 1). -/

namespace Sys2Proof.Machine

open Sys2Proof.Spec

/-! ### The host's turns -/

/-- A run's first step. -/
theorem run_succ_of_step {s t : State} (h : step s = .next t) (n : Nat) : run (n + 1) s = run n t := by
  have hcore : core.step s = .next t := h
  simp only [run, Host.Core.run, hcore]
  rfl

/-- `s` with the host's next turns, as many as there are words, each with its word on the port. -/
def withHostWords (s : State) (ws : List OpWord) : State :=
  { s with
    hostProgram := ws.map .word ++ s.hostProgram
    schedule := List.replicate ws.length .host ++ s.schedule }

/-- The first of the words is on the port before the others. -/
theorem withHostWords_cons (s : State) (w : OpWord) (ws : List OpWord) :
    withHostWords s (w :: ws) = withHostWord (withHostWords s ws) w := rfl

/-- With `rst` released and no strobe to fall (log 12), the first turn executes the first word alone. -/
theorem run_withHostWords_cons {s t : State} {i : Instr} {ws : List OpWord} (hr : s.rst = false)
    (hs : s.tpReset = false) (hi : i.wellFormed = true) (h : exec i (withHostWords s ws) = .next t) (n : Nat) :
    run (n + 1) (withHostWords s (encode i :: ws)) = run n t := by
  have hstrobe : { withHostWords s ws with tpReset := false } = withHostWords s ws := by rw [withHostWords, ← hs]
  have hstep := step_withHostWord_of_decode (s := withHostWords s ws) hr (decode_encode hi)
  rw [hstrobe, h] at hstep
  exact run_succ_of_step hstep n

/-! ### The bytes' pushes and XACT -/

/-- BUF.PUSH of a byte that fits, with more turns behind it (R221). -/
theorem exec_bufPush_withHostWords {s : State} (hp : s.phase = .idle) (hl : s.dbuf.length < 254) (b : Byte)
    (ws : List OpWord) :
    exec (.bufPush b) (withHostWords s ws) = .next (withHostWords { s with dbuf := s.dbuf ++ [b] } ws) := by
  rw [exec, execBufPush, hostWrite_idle _ (s := withHostWords s ws) hp, pushDbuf_eq]
  exact congrArg Host.Outcome.next (if_pos hl)

/-- XACT of a loaded command starts the transaction (R200). -/
theorem exec_xact_cons {s : State} {op : Byte} {cmd : List Byte} (hp : s.phase = .idle) (hd : s.dbuf = op :: cmd) :
    exec .xact s = .next (transacting op cmd s) := by
  rw [exec, execXact, hostWrite_idle _ hp, startXact_cons hd]

/-- The words of `LOAD data; XACT` after its BUF.CLR (R112). -/
def loadWords (data : List Byte) : List OpWord := data.map (fun b => encode (.bufPush b)) ++ [encode .xact]

/-- They are what a carried command leaves the host to do (log 1). -/
theorem loadRest_eq_loadWords (data : List Byte) : loadRest data = (loadWords data).map .word := by
  rw [loadWords, List.map_append, List.map_map]
  rfl

theorem length_loadWords (data : List Byte) : (loadWords data).length = data.length + 1 := by
  rw [loadWords, List.length_append, List.length_map]
  rfl

/-- The pushes append the bytes to DBUF one by one, and XACT starts on all of them. -/
theorem run_loadWords {s : State} {op : Byte} {cmd data : List Byte} (hr : s.rst = false) (hs : s.tpReset = false)
    (hp : s.phase = .idle) (hd : s.dbuf ++ data = op :: cmd) (hl : cmd.length ≤ 253) :
    run (data.length + 1) (withHostWords s (loadWords data)) = .next (transacting op cmd s) := by
  induction data generalizing s with
  | nil =>
    rw [List.append_nil] at hd
    exact run_withHostWords_cons (i := .xact) hr hs rfl (exec_xact_cons hp hd) 0
  | cons b data ih =>
    have hfit : s.dbuf.length < 254 := by
      have hlen := congrArg List.length hd
      simp only [List.length_append, List.length_cons] at hlen
      omega
    have hpush := exec_bufPush_withHostWords hp hfit b (loadWords data)
    have hrest : s.dbuf ++ [b] ++ data = op :: cmd := by rw [List.append_assoc, List.singleton_append, hd]
    exact (run_withHostWords_cons (i := .bufPush b) hr hs rfl hpush (data.length + 1)).trans
      (ih (s := { s with dbuf := s.dbuf ++ [b] }) hr hs hp hrest)

/-! ### The carried command -/

/-- On an idle block the CARRIED word on the port clears DBUF and puts the rest of the load on the host's list
(log 1). -/
theorem step_withHostWord_carried {s : State} (hr : s.rst = false) (hp : s.phase = .idle) (op : Byte) (p : List Byte) :
    step (withHostWord s (.carried op p)) =
      .next { s with tpReset := false, dbuf := [], hostProgram := loadRest (op :: p) ++ s.hostProgram } := by
  rw [step_withHostWord hr, perform_carried]
  exact carry_idle (s := { s with tpReset := false }) hp (op :: p)

/-- With a turn for each of them, the words of the load are then the next to be performed. -/
theorem step_carried_replicate_host {s : State} (hr : s.rst = false) (hp : s.phase = .idle) (op : Byte)
    (p : List Byte) :
    step { s with
      hostProgram := .word (.carried op p) :: s.hostProgram
      schedule := List.replicate (p.length + 3) .host ++ s.schedule } =
    .next (withHostWords { s with tpReset := false, dbuf := [] } (loadWords (op :: p))) := by
  rw [withHostWords, length_loadWords, ← loadRest_eq_loadWords]
  exact step_withHostWord_carried (s := { s with schedule := List.replicate (p.length + 2) .host ++ s.schedule })
    hr hp op p

/-- Settles O41: the CARRIED word's turn, then the run of the load by induction over its bytes. -/
theorem carriedCommandsStartTheirTransaction : Obligations.CarriedCommandsStartTheirTransaction := by
  unfold Obligations.CarriedCommandsStartTheirTransaction
  intro op p s hr hp hl
  rw [run_succ_of_step (step_carried_replicate_host hr hp op p)]
  exact run_loadWords (s := { s with tpReset := false, dbuf := [] }) (data := op :: p) hr rfl hp rfl hl

end Sys2Proof.Machine
end

section
/-! PROOF. Exceptions: the host clears flags (60_exceptions.md R296), and a read phase's step to IDLE is an abort (R290). -/

namespace Sys2Proof.Machine

open Sys2Proof.Spec

/-! ### The host clears flags -/

/-- Settles O13: each clear is a host write of `clearFlags`. -/
theorem writingOnesClearsFlags : Obligations.WritingOnesClearsFlags := by
  unfold Obligations.WritingOnesClearsFlags
  exact fun m => ⟨hostOperation_of_hostWrite rfl rfl rfl fun _ => rfl,
    hostOperation_of_hostWrite rfl rfl rfl fun _ => rfl⟩

/-! ### Which completions end in IDLE -/

/-- `Enter` starts a read phase (R203). -/
theorem enter_phase_ne_idle {p : Phase} (hp : p ≠ .idle) (n : Byte) (s : State) : (enter p n s).phase ≠ .idle := by
  obtain he | ⟨-, -, he⟩ := enter_cases p n s <;> rw [he]
  · exact hp
  · exact Phase.noConfusion

/-- RD_HDR ends in IDLE by the failure of one of its four checks, on the latched fields (R176 to R180). -/
theorem complete_rdHdr_of_idle {b : Byte} {s : State} (hp : s.phase = .rdHdr) (h : (complete b s).phase = .idle) :
    ∃ m ∈ checkBits .rdHdr, complete b s = aborted m 0x00 3 s.cnt (latchHdr s) := by
  have hcomplete : complete b s = completeHdr s := by rw [complete, hp]
  have heq := hcomplete.trans (completeHdr_eq_of_phase hp)
  split at heq
  · exact ⟨0x02, by decide, heq⟩
  split at heq
  · exact ⟨0x04, by decide, heq⟩
  split at heq
  · exact ⟨0x08, by decide, heq⟩
  split at heq
  · exact ⟨0x80, by decide, heq⟩
  split at heq <;> · rw [heq] at h; nomatch h

/-- RD_DCS ends in IDLE by DATA_CHECKSUM (R183). -/
theorem complete_rdDcs_of_idle {b : Byte} {s : State} (hp : s.phase = .rdDcs) (h : (complete b s).phase = .idle) :
    complete b s = raise .dataChecksum s := by
  have hcomplete : complete b s = completeDcs b s := by rw [complete, hp]
  rw [hcomplete, completeDcs] at h ⊢
  split at h
  case isTrue hsum => exact if_pos hsum
  case isFalse => exact absurd h (enter_phase_ne_idle (by decide) 1 s)

/-- RD_POST ends in IDLE by POSTAMBLE; with the postamble byte right the ACK follows (R184). -/
theorem complete_rdPost_of_idle {b : Byte} {s : State} (hp : s.phase = .rdPost) (h : (complete b s).phase = .idle) :
    complete b s = raise .postamble s := by
  have hcomplete : complete b s = completePost b s := by rw [complete, hp]
  rw [hcomplete, completePost] at h ⊢
  split at h
  case isTrue hpost => exact if_pos hpost
  case isFalse => nomatch h

/-! ### The abort by a check -/

/-- The header with its latches (R175). -/
theorem received_rdHdr {s : State} (hp : s.phase = .rdHdr) (b : Byte) (rest : List Byte) :
    received b rest s = latchHdr (stored b rest s) := by
  rw [stored_header (.inr hp), received, hp]
  rfl

theorem received_rdDcs {s : State} (hp : s.phase = .rdDcs) (b : Byte) (rest : List Byte) :
    received b rest s = stored b rest s := by
  rw [stored_rdDcs hp, received, hp]

theorem received_rdPost {s : State} (hp : s.phase = .rdPost) (b : Byte) (rest : List Byte) :
    received b rest s = stored b rest s := by
  rw [stored_rdPost hp, received, hp]

/-- The last byte of a read phase ends in IDLE only by a check of RD_HDR, RD_DCS or RD_POST; RD_ACK and RD_PAY enter the
next phase (R172, R182, R290). -/
theorem complete_stored_of_idle {s : State} (hp : s.phase.isRead = true) (b : Byte) (rest : List Byte)
    (h : (complete b (stored b rest s)).phase = .idle) :
    ∃ m ∈ checkBits s.phase, complete b (stored b rest s) =
      aborted m 0x00 (byteOf s.phase.code.toNat) (s.cnt + 1) (received b rest s) := by
  cases hs : s.phase with
  | idle | txCmd | txAck | drain => rw [hs] at hp; nomatch hp
  | rdAck =>
    rw [complete, stored_phase, hs] at h
    exact absurd h (enter_phase_ne_idle (by decide) 6 _)
  | rdPay =>
    rw [complete, stored_phase, hs] at h
    exact absurd h (enter_phase_ne_idle (by decide) 1 _)
  | rdHdr =>
    rw [received_rdHdr hs]
    exact complete_rdHdr_of_idle ((stored_phase b rest s).trans hs) h
  | rdDcs =>
    refine ⟨0x10, by decide, ?_⟩
    rw [complete_rdDcs_of_idle ((stored_phase b rest s).trans hs) h, raise_eq_aborted, received_rdDcs hs, stored_phase,
      hs]
    rfl
  | rdPost =>
    refine ⟨0x20, by decide, ?_⟩
    rw [complete_rdPost_of_idle ((stored_phase b rest s).trans hs) h, raise_eq_aborted, received_rdPost hs, stored_phase,
      hs]
    rfl

/-- A receive that ends in IDLE was of the phase's last byte, and a check failed on it (R204, R290). -/
theorem receiveStep_of_idle {s : State} (hp : s.phase.isRead = true) (b : Byte) (rest : List Byte)
    (h : (receiveStep b rest s).phase = .idle) :
    s.cnt + 1 = s.need ∧ ∃ m ∈ checkBits s.phase,
      receiveStep b rest s = aborted m 0x00 (byteOf s.phase.code.toNat) s.need (received b rest s) := by
  by_cases hlast : s.cnt + 1 = s.need
  · rw [receiveStep_of_eq hlast] at h ⊢
    rw [← hlast]
    exact ⟨rfl, complete_stored_of_idle hp b rest h⟩
  · rw [receiveStep_of_ne hlast, stored_phase] at h
    rw [h] at hp
    nomatch hp

/-- Settles O34: of the sequencer's steps a read phase has the receive and the expire step, and each ends in IDLE only by
raising an exception. -/
theorem abortsAreRecorded : Obligations.AbortsAreRecorded := by
  unfold Obligations.AbortsAreRecorded
  intro s t hp hstep ht
  have hphase {p : Phase} (hs : s.phase = p) : p.isRead = true := hs ▸ hp
  obtain ⟨-, rfl⟩ | ⟨hs, -⟩ | ⟨hs, -⟩ | ⟨-, -, b, rest, hq, rfl⟩ | ⟨-, -, hq, htimer, rfl⟩ | ⟨hs, -⟩ :=
    seqStep_cases hstep
  · nomatch hphase ht
  · nomatch hphase hs
  · nomatch hphase hs
  · exact .inr ⟨b, rest, hq, receiveStep_of_idle hp b rest ht⟩
  · exact .inl ⟨hq, htimer, raise_eq_aborted .timeout s⟩
  · nomatch hphase hs

end Sys2Proof.Machine
end

section
/-! PROOF. No step stops (70_reset_and_hazards.md R324, 20_memory.md R68): in a write phase the invariant gives the sequencer
a byte at TXI, and at the end of XACT's decode a byte for RSP_OP; every other move answers a state by its definition. -/

namespace Sys2Proof.Machine

/-! ### The bytes of a write phase -/

/-- TXI names a byte of the sequence that TX_CMD writes, whichever it is (R31, R32). -/
theorem Writing.exists_txBytes {s : State} (h : Writing s) (hp : s.phase = .txCmd) (hl : s.dbuf.length ≤ 254) :
    ∃ bs b, s.txBytes = some bs ∧ bs[s.txi.toNat]? = some b := by
  have hlt := Nat.lt_of_lt_of_eq h.index h.count
  cases hs : s.txsel <;> rw [hs] at hlt
  case frame =>
    exact ⟨_, _, txBytes_frame hp hs hl, List.getElem?_eq_getElem (hlt.trans_eq (length_frameBytes tfiHost s.dbuf).symm)⟩
  case ack => exact ⟨_, _, txBytes_ack hs, List.getElem?_eq_getElem hlt⟩
  case raw => exact ⟨_, _, txBytes_raw hp hs, List.getElem?_eq_getElem hlt⟩

/-! ### The end of a decode -/

/-- The echo check completes if RBUF has a byte wherever RLEN says so (R211). -/
theorem echoCheck_completes {s : State} (h : s.rlen ≠ 0 → s.rbuf ≠ []) : ∃ t, echoCheck s = .next t := by
  by_cases hl : s.rlen = 0
  · exact ⟨_, echoCheck_empty hl⟩
  · obtain ⟨op, rest, hb⟩ := List.exists_cons_of_ne_nil (h hl)
    exact ⟨_, echoCheck_cons hl hb⟩

/-- With the payload received the end of the decode completes: the payload has RX_LEN - 1 bytes (R182, R185). -/
theorem Received.finishDecode_completes {s : State} (h : Received s) : ∃ t, finishDecode s = .next t := by
  by_cases hop : s.opsel = .xact
  · have hbyte : s.rxLen - 1 ≠ 0 → s.rbuf ≠ [] := by
      intro hl hb
      have hlen := h.length
      rw [hb, List.length_nil] at hlen
      bv_omega
    obtain ⟨t, ht⟩ := echoCheck_completes (s := { s with rlen := s.rxLen - 1 }) hbyte
    exact ⟨_, finishDecode_of_echoCheck hop ht⟩
  · exact ⟨_, finishDecode_of_ne hop⟩

/-- So does the step of TX_ACK, whether or not its byte is the last (R185). -/
theorem Received.txAckAdvance_completes {s : State} (h : Received s) (b : Byte) : ∃ t, txAckAdvance b s = .next t := by
  rw [txAckAdvance_eq]
  split
  · exact Received.finishDecode_completes ⟨h.length, h.running⟩
  · exact ⟨_, rfl⟩

/-! ### The step -/

/-- The sequencer's step completes, waiting where it has none enabled. -/
theorem Sound.seqStep_completes {s : State} (h : Sound s) (hl : s.dbuf.length ≤ 254) : ∃ t, Machine.seqStep s = .next t := by
  cases he : seqEnabled s with
  | false => exact ⟨_, seqStep_disabled he⟩
  | true =>
    cases hp : s.phase with
    | txCmd =>
      obtain ⟨bs, b, hs, hb⟩ := ((phaseInv_txCmd hp).1 h.phase).exists_txBytes hp hl
      exact ⟨_, seqStep_txCmd hp (by rwa [seqEnabled, hp] at he) hs hb⟩
    | txAck =>
      obtain ⟨-, hr, hi, -⟩ := (phaseInv_txAck hp).1 h.phase
      have hb : ackBytes[s.txi.toNat]? = some _ := List.getElem?_eq_getElem hi
      rw [seqStep_txAck hp (by rwa [seqEnabled, hp] at he) hb]
      exact hr.txAckAdvance_completes _
    | idle | rdAck | rdHdr | rdPay | rdDcs | rdPost | drain =>
      rw [seqStep_enabled he, seqMove, hp]
      exact ⟨_, rfl⟩

/-- With `rst` released every agent's move completes. -/
theorem Sound.move_completes {s : State} (h : Sound s) (hl : s.dbuf.length ≤ 254) (a : Agent) : ∃ t, move a s = .next t := by
  cases a with
  | host => exact hostMove_completes s
  | sequencer => exact h.seqStep_completes hl
  | timeBase | peerSend | peerTake | rstAssert | rstRelease => exact ⟨_, rfl⟩

/-- Settles O51: under `rst` every move completes in every state, outside it by the invariant. -/
theorem noStepStops : Obligations.NoStepStops := by
  unfold Obligations.NoStepStops
  intro s h
  cases hr : s.rst with
  | true =>
    obtain ⟨t, ht, -⟩ := step_of_rst hr
    exact ⟨t, ht⟩
  | false =>
    have hbegin : Sound (beginStep s) := (h.sound hr).of_view rfl h.reserved
    rw [step_run hr]
    exact hbegin.move_completes ((memory_wf_iff s).1 h.buffers).1 _

end Sys2Proof.Machine
end

section
/-! PROOF. While the transport accepts no byte a write phase stays as it is (70_reset_and_hazards.md R331,
93_implementation_defined.md U9): what each agent's move can change then, and the run by induction over its steps. -/

namespace Sys2Proof.Machine

open Sys2Proof.Spec

/-! ### What the moves can change -/

/-- SRST is not among these actions of the host. -/
def NoSrst (actions : List HostAction) : Prop := ∀ a ∈ actions, a ≠ .word (.wr 0x007F)

/-- `s` with all blanked that the host's accesses while BUSY and the peer's sending can write. -/
def stallErased (s : State) : State :=
  { s with rptr := 0, err1 := 0, regRdata := 0, rxq := [], hostProgram := [], peerOut := [], freeIx := 0 }

/-- From `s` to `t` only what `stallErased` blanks changed, and the host got no SRST to do. -/
structure StallKept (s t : State) : Prop where
  frame : stallErased t = stallErased s
  program : NoSrst s.hostProgram → NoSrst t.hostProgram

theorem StallKept.refl (s : State) : StallKept s s := ⟨rfl, id⟩

theorem StallKept.trans {s t u : State} (h : StallKept s t) (h' : StallKept t u) : StallKept s u :=
  ⟨h'.frame.trans h.frame, h'.program ∘ h.program⟩

/-- The host's next action taken off its list. -/
theorem stallKept_tail {s : State} {a : HostAction} {rest : List HostAction} (hp : s.hostProgram = a :: rest) :
    StallKept s { s with hostProgram := rest } :=
  ⟨rfl, fun h b hb => h b (hp ▸ List.mem_cons_of_mem a hb)⟩

/-- The accesses of a carried command are pushes and XACT (log 1). -/
theorem noSrst_loadRest (data : List Byte) : NoSrst (loadRest data) := by
  intro a ha
  rw [loadRest, List.mem_append, List.mem_map, List.mem_singleton] at ha
  obtain ⟨b, -, rfl⟩ | rfl := ha
  · have haddress : wrAddress (0x07#8 ++ b) ≠ wrAddress 0x007F := by rw [wrAddress_append]; decide
    simp only [ne_eq, HostAction.word.injEq, OpWord.wr.injEq]
    exact fun hw => haddress (congrArg wrAddress hw)
  · decide

/-- While BUSY any word but SRST's is turned away, read, or carried (R71, R230). -/
theorem perform_stallKept {w : OpWord} {s : State} (hp : s.phase ≠ .idle) (hw : w ≠ .wr 0x007F) :
    ∃ t, perform w s = .next t ∧ StallKept s t := by
  cases w with
  | wr w =>
    obtain ⟨-, -, hturned⟩ := srstResetsTheBlock
    obtain h | h := hturned s w hp (fun h => hw (congrArg OpWord.wr h))
    · exact ⟨_, h, .refl s⟩
    · exact ⟨_, h, rfl, id⟩
  | rd a =>
    obtain ⟨b, i, e, n, h⟩ := hostRead_eq a s
    exact ⟨_, (perform_rd a s).trans (congrArg _ h), rfl, id⟩
  | carried op p =>
    refine ⟨_, (perform_carried op p s).trans (carry_busy hp _), rfl, fun h => ?_⟩
    exact List.forall_mem_append.2 ⟨noSrst_loadRest _, h⟩

/-- While BUSY the host's access, SRST's excepted, keeps the stall. -/
theorem hostMove_stallKept {s : State} (hp : s.phase ≠ .idle) (hs : NoSrst s.hostProgram) :
    ∃ t, hostMove s = .next t ∧ StallKept s t := by
  obtain ⟨-, hm⟩ | ⟨w, rest, ha, hm⟩ | ⟨rest, ha, hm⟩ | ⟨rest, ha, hm⟩ := hostMove_cases s
  · exact ⟨s, hm, .refl s⟩
  · have hw : HostAction.word w ≠ .word (.wr 0x007F) := hs _ (ha ▸ List.mem_cons_self)
    obtain ⟨t, ht, hk⟩ := perform_stallKept (s := { s with hostProgram := rest }) hp (fun h => hw (congrArg _ h))
    exact ⟨t, hm.trans ht, (stallKept_tail ha).trans hk⟩
  · rw [waitStep_busy (s := { s with hostProgram := rest }) hp] at hm
    exact ⟨_, hm, rfl, fun h => ha ▸ h⟩
  · refine ⟨_, hm, (stallKept_tail ha).trans ⟨rfl, fun h => ?_⟩⟩
    refine List.forall_mem_append.2 ⟨fun a hpop => ?_, h⟩
    rw [List.eq_of_mem_replicate hpop]
    decide

theorem stallKept_peerSendStep (s : State) : StallKept s (peerSendStep s) := by
  obtain he | ⟨b, rest, -, he⟩ | ⟨b, rest, -, he⟩ := peerSendStep_cases s <;> rw [he]
  · exact .refl s
  all_goals exact ⟨rfl, id⟩

/-! ### The stall -/

/-- A write phase that the transport stalls, with `rst` released and no SRST of the host to come. -/
structure WriteStalled (s : State) : Prop where
  phase : s.phase = .txCmd ∨ s.phase = .txAck
  full : s.txReady = false
  released : s.rst = false
  noSrst : NoSrst s.hostProgram

theorem WriteStalled.busy {s : State} (h : WriteStalled s) : s.phase ≠ .idle := by
  obtain hp | hp := h.phase <;> simp [hp]

/-- None of what a stall consists of is written. -/
theorem WriteStalled.of_stallKept {s t : State} (h : WriteStalled s) (hk : StallKept s t) : WriteStalled t where
  phase := (congrArg State.phase hk.frame :) ▸ h.phase
  full := (congrArg State.txReady hk.frame :).trans h.full
  released := (congrArg State.rst hk.frame :).trans h.released
  noSrst := hk.program h.noSrst

/-- Every move but the peer's take and the assertion of `rst` keeps the stall. -/
theorem WriteStalled.move {s : State} (h : WriteStalled s) {a : Agent} (htake : a ≠ .peerTake) (hrst : a ≠ .rstAssert) :
    ∃ t, move a s = .next t ∧ StallKept s t := by
  cases a with
  | host => exact hostMove_stallKept h.busy h.noSrst
  | sequencer => exact ⟨s, seqStep_write_stalled h.phase h.full, .refl s⟩
  | timeBase =>
    obtain he | ⟨hread, -, -⟩ := tickStep_cases s
    · exact ⟨s, congrArg Host.Outcome.next he, .refl s⟩
    · obtain hp | hp := h.phase <;> simp [hp, Phase.isRead] at hread
  | peerSend => exact ⟨_, rfl, stallKept_peerSendStep s⟩
  | rstRelease =>
    have he : rstReleaseStep s = s := by rw [rstReleaseStep, h.released]; rfl
    exact ⟨s, congrArg Host.Outcome.next he, .refl s⟩
  | peerTake => exact absurd rfl htake
  | rstAssert => exact absurd rfl hrst

/-- A step of such an agent keeps the stall and uses up its turn. -/
theorem WriteStalled.step {s : State} (h : WriteStalled s) {a : Agent} {as : List Agent} (hs : s.schedule = a :: as)
    (htake : a ≠ .peerTake) (hrst : a ≠ .rstAssert) :
    ∃ t, step s = .next t ∧ WriteStalled t ∧ t.schedule = as ∧ t.phase = s.phase ∧ t.txq = s.txq ∧ t.dbuf = s.dbuf := by
  have hbegin : WriteStalled (beginStep s) := ⟨h.phase, h.full, h.released, h.noSrst⟩
  have hnext : nextAgent s = a := by rw [nextAgent, hs]
  obtain ⟨t, ht, hk⟩ := hbegin.move htake hrst
  have hschedule : t.schedule = s.schedule.tail := (congrArg State.schedule hk.frame :)
  exact ⟨t, by rw [step_run h.released, hnext, ht], hbegin.of_stallKept hk, by rw [hschedule, hs, List.tail_cons],
    (congrArg State.phase hk.frame :), (congrArg State.txq hk.frame :), (congrArg State.dbuf hk.frame :)⟩

/-- A run within such a schedule keeps the phase, TXQ and DBUF. -/
theorem WriteStalled.run {n : Nat} {s : State} (h : WriteStalled s) (hn : n ≤ s.schedule.length)
    (hs : ∀ a ∈ s.schedule, a ≠ .peerTake ∧ a ≠ .rstAssert) :
    ∃ t, run n s = .next t ∧ t.phase = s.phase ∧ t.txq = s.txq ∧ t.dbuf = s.dbuf := by
  induction n generalizing s with
  | zero => exact ⟨s, rfl, rfl, rfl, rfl⟩
  | succ n ih =>
    obtain ⟨a, as, hsch⟩ := List.exists_cons_of_length_pos (Nat.zero_lt_of_lt hn)
    rw [hsch, List.forall_mem_cons] at hs
    rw [hsch, List.length_cons] at hn
    obtain ⟨⟨htake, hrst⟩, has⟩ := hs
    obtain ⟨t, ht, hstalled, rfl, hphase, htxq, hdbuf⟩ := h.step hsch htake hrst
    obtain ⟨u, hu, hphase', htxq', hdbuf'⟩ := ih hstalled (Nat.le_of_succ_le_succ hn) has
    exact ⟨u, (run_succ_of_step ht n).trans hu, hphase'.trans hphase, htxq'.trans htxq, hdbuf'.trans hdbuf⟩

/-- Settles O48: by induction over the steps of the run, each of which keeps the stall. -/
theorem stalledWriteNeverEnds : Obligations.StalledWriteNeverEnds := by
  unfold Obligations.StalledWriteNeverEnds
  intro n s hp hfull hr hn hs hprogram
  exact WriteStalled.run ⟨hp, hfull, hr, hprogram⟩ hn hs

end Sys2Proof.Machine
end
